-- ==== Sys2Proof/Word.lean ====
section
/-!
DEFINITION. The two widths of the core (spec 00_scope.md R5, R7): an 8-bit data word and a 16-bit
address. Both are bit vectors, so arithmetic on them wraps mod 256 and mod 65536 as R167 says.
-/
namespace Sys2Proof

/-- An 8-bit value, the spec's `u8`. -/
abbrev Byte := BitVec 8

/-- A 16-bit value, the spec's `u16`: an address, or PC. -/
abbrev Word := BitVec 16

end Sys2Proof
end

