-- ==== Sys2Proof/Syntax.lean ====
section
/-!
DEFINITION. The instructions (spec/opcode_table.json, 30_encoding.md R90–R95): one constructor per
populated opcode, named by mnemonic and addressing mode, carrying the operand bytes the mode fetches:
`nn` one byte (an immediate value, a zero-page address or a zero-page pointer), `ww` the two bytes
`hh:ll` already put together, `rr` a branch displacement (R91, R92). Every operand value is allowed.
-/
namespace Sys2Proof

/-- The 151 instructions of R94. -/
inductive Instr where
  -- load and store (41_load_store.md)
  /-- `LDA #$nn` (R140, R120) -/
  | ldaImm (nn : Byte)
  /-- `LDA $nn` (R140, R121) -/
  | ldaZp (nn : Byte)
  /-- `LDA $nn,X` (R140, R122) -/
  | ldaZpx (nn : Byte)
  /-- `LDA $hhll` (R140, R124) -/
  | ldaAbs (ww : Word)
  /-- `LDA $hhll,X` (R140, R125) -/
  | ldaAbsx (ww : Word)
  /-- `LDA $hhll,Y` (R140, R126) -/
  | ldaAbsy (ww : Word)
  /-- `LDA ($nn,X)` (R140, R128) -/
  | ldaIndx (nn : Byte)
  /-- `LDA ($nn),Y` (R140, R129) -/
  | ldaIndy (nn : Byte)
  /-- `LDX #$nn` (R141, R120) -/
  | ldxImm (nn : Byte)
  /-- `LDX $nn` (R141, R121) -/
  | ldxZp (nn : Byte)
  /-- `LDX $nn,Y` (R141, R123) -/
  | ldxZpy (nn : Byte)
  /-- `LDX $hhll` (R141, R124) -/
  | ldxAbs (ww : Word)
  /-- `LDX $hhll,Y` (R141, R126) -/
  | ldxAbsy (ww : Word)
  /-- `LDY #$nn` (R142, R120) -/
  | ldyImm (nn : Byte)
  /-- `LDY $nn` (R142, R121) -/
  | ldyZp (nn : Byte)
  /-- `LDY $nn,X` (R142, R122) -/
  | ldyZpx (nn : Byte)
  /-- `LDY $hhll` (R142, R124) -/
  | ldyAbs (ww : Word)
  /-- `LDY $hhll,X` (R142, R125) -/
  | ldyAbsx (ww : Word)
  /-- `STA $nn` (R143, R121) -/
  | staZp (nn : Byte)
  /-- `STA $nn,X` (R143, R122) -/
  | staZpx (nn : Byte)
  /-- `STA $hhll` (R143, R124) -/
  | staAbs (ww : Word)
  /-- `STA $hhll,X` (R143, R125) -/
  | staAbsx (ww : Word)
  /-- `STA $hhll,Y` (R143, R126) -/
  | staAbsy (ww : Word)
  /-- `STA ($nn,X)` (R143, R128) -/
  | staIndx (nn : Byte)
  /-- `STA ($nn),Y` (R143, R129) -/
  | staIndy (nn : Byte)
  /-- `STX $nn` (R144, R121) -/
  | stxZp (nn : Byte)
  /-- `STX $nn,Y` (R144, R123) -/
  | stxZpy (nn : Byte)
  /-- `STX $hhll` (R144, R124) -/
  | stxAbs (ww : Word)
  /-- `STY $nn` (R145, R121) -/
  | styZp (nn : Byte)
  /-- `STY $nn,X` (R145, R122) -/
  | styZpx (nn : Byte)
  /-- `STY $hhll` (R145, R124) -/
  | styAbs (ww : Word)
  -- arithmetic and logic (42_arithmetic_logic.md)
  /-- `ADC #$nn` (R162, R120) -/
  | adcImm (nn : Byte)
  /-- `ADC $nn` (R162, R121) -/
  | adcZp (nn : Byte)
  /-- `ADC $nn,X` (R162, R122) -/
  | adcZpx (nn : Byte)
  /-- `ADC $hhll` (R162, R124) -/
  | adcAbs (ww : Word)
  /-- `ADC $hhll,X` (R162, R125) -/
  | adcAbsx (ww : Word)
  /-- `ADC $hhll,Y` (R162, R126) -/
  | adcAbsy (ww : Word)
  /-- `ADC ($nn,X)` (R162, R128) -/
  | adcIndx (nn : Byte)
  /-- `ADC ($nn),Y` (R162, R129) -/
  | adcIndy (nn : Byte)
  /-- `SBC #$nn` (R163, R120) -/
  | sbcImm (nn : Byte)
  /-- `SBC $nn` (R163, R121) -/
  | sbcZp (nn : Byte)
  /-- `SBC $nn,X` (R163, R122) -/
  | sbcZpx (nn : Byte)
  /-- `SBC $hhll` (R163, R124) -/
  | sbcAbs (ww : Word)
  /-- `SBC $hhll,X` (R163, R125) -/
  | sbcAbsx (ww : Word)
  /-- `SBC $hhll,Y` (R163, R126) -/
  | sbcAbsy (ww : Word)
  /-- `SBC ($nn,X)` (R163, R128) -/
  | sbcIndx (nn : Byte)
  /-- `SBC ($nn),Y` (R163, R129) -/
  | sbcIndy (nn : Byte)
  /-- `AND #$nn` (R164, R120) -/
  | andImm (nn : Byte)
  /-- `AND $nn` (R164, R121) -/
  | andZp (nn : Byte)
  /-- `AND $nn,X` (R164, R122) -/
  | andZpx (nn : Byte)
  /-- `AND $hhll` (R164, R124) -/
  | andAbs (ww : Word)
  /-- `AND $hhll,X` (R164, R125) -/
  | andAbsx (ww : Word)
  /-- `AND $hhll,Y` (R164, R126) -/
  | andAbsy (ww : Word)
  /-- `AND ($nn,X)` (R164, R128) -/
  | andIndx (nn : Byte)
  /-- `AND ($nn),Y` (R164, R129) -/
  | andIndy (nn : Byte)
  /-- `ORA #$nn` (R165, R120) -/
  | oraImm (nn : Byte)
  /-- `ORA $nn` (R165, R121) -/
  | oraZp (nn : Byte)
  /-- `ORA $nn,X` (R165, R122) -/
  | oraZpx (nn : Byte)
  /-- `ORA $hhll` (R165, R124) -/
  | oraAbs (ww : Word)
  /-- `ORA $hhll,X` (R165, R125) -/
  | oraAbsx (ww : Word)
  /-- `ORA $hhll,Y` (R165, R126) -/
  | oraAbsy (ww : Word)
  /-- `ORA ($nn,X)` (R165, R128) -/
  | oraIndx (nn : Byte)
  /-- `ORA ($nn),Y` (R165, R129) -/
  | oraIndy (nn : Byte)
  /-- `EOR #$nn` (R166, R120) -/
  | eorImm (nn : Byte)
  /-- `EOR $nn` (R166, R121) -/
  | eorZp (nn : Byte)
  /-- `EOR $nn,X` (R166, R122) -/
  | eorZpx (nn : Byte)
  /-- `EOR $hhll` (R166, R124) -/
  | eorAbs (ww : Word)
  /-- `EOR $hhll,X` (R166, R125) -/
  | eorAbsx (ww : Word)
  /-- `EOR $hhll,Y` (R166, R126) -/
  | eorAbsy (ww : Word)
  /-- `EOR ($nn,X)` (R166, R128) -/
  | eorIndx (nn : Byte)
  /-- `EOR ($nn),Y` (R166, R129) -/
  | eorIndy (nn : Byte)
  -- shifts and rotates (43_shift_rotate.md)
  /-- `ASL A` (R181, R119) -/
  | aslAcc
  /-- `ASL $nn` (R181, R121) -/
  | aslZp (nn : Byte)
  /-- `ASL $nn,X` (R181, R122) -/
  | aslZpx (nn : Byte)
  /-- `ASL $hhll` (R181, R124) -/
  | aslAbs (ww : Word)
  /-- `ASL $hhll,X` (R181, R125) -/
  | aslAbsx (ww : Word)
  /-- `LSR A` (R182, R119) -/
  | lsrAcc
  /-- `LSR $nn` (R182, R121) -/
  | lsrZp (nn : Byte)
  /-- `LSR $nn,X` (R182, R122) -/
  | lsrZpx (nn : Byte)
  /-- `LSR $hhll` (R182, R124) -/
  | lsrAbs (ww : Word)
  /-- `LSR $hhll,X` (R182, R125) -/
  | lsrAbsx (ww : Word)
  /-- `ROL A` (R183, R119) -/
  | rolAcc
  /-- `ROL $nn` (R183, R121) -/
  | rolZp (nn : Byte)
  /-- `ROL $nn,X` (R183, R122) -/
  | rolZpx (nn : Byte)
  /-- `ROL $hhll` (R183, R124) -/
  | rolAbs (ww : Word)
  /-- `ROL $hhll,X` (R183, R125) -/
  | rolAbsx (ww : Word)
  /-- `ROR A` (R184, R119) -/
  | rorAcc
  /-- `ROR $nn` (R184, R121) -/
  | rorZp (nn : Byte)
  /-- `ROR $nn,X` (R184, R122) -/
  | rorZpx (nn : Byte)
  /-- `ROR $hhll` (R184, R124) -/
  | rorAbs (ww : Word)
  /-- `ROR $hhll,X` (R184, R125) -/
  | rorAbsx (ww : Word)
  -- compare and bit test (44_compare_bit.md)
  /-- `CMP #$nn` (R191, R120) -/
  | cmpImm (nn : Byte)
  /-- `CMP $nn` (R191, R121) -/
  | cmpZp (nn : Byte)
  /-- `CMP $nn,X` (R191, R122) -/
  | cmpZpx (nn : Byte)
  /-- `CMP $hhll` (R191, R124) -/
  | cmpAbs (ww : Word)
  /-- `CMP $hhll,X` (R191, R125) -/
  | cmpAbsx (ww : Word)
  /-- `CMP $hhll,Y` (R191, R126) -/
  | cmpAbsy (ww : Word)
  /-- `CMP ($nn,X)` (R191, R128) -/
  | cmpIndx (nn : Byte)
  /-- `CMP ($nn),Y` (R191, R129) -/
  | cmpIndy (nn : Byte)
  /-- `CPX #$nn` (R192, R120) -/
  | cpxImm (nn : Byte)
  /-- `CPX $nn` (R192, R121) -/
  | cpxZp (nn : Byte)
  /-- `CPX $hhll` (R192, R124) -/
  | cpxAbs (ww : Word)
  /-- `CPY #$nn` (R193, R120) -/
  | cpyImm (nn : Byte)
  /-- `CPY $nn` (R193, R121) -/
  | cpyZp (nn : Byte)
  /-- `CPY $hhll` (R193, R124) -/
  | cpyAbs (ww : Word)
  /-- `BIT $nn` (R194, R121) -/
  | bitZp (nn : Byte)
  /-- `BIT $hhll` (R194, R124) -/
  | bitAbs (ww : Word)
  -- branches and jumps (45_branch_jump.md)
  /-- `BCC $rr` (R201, R130) -/
  | bcc (rr : Byte)
  /-- `BCS $rr` (R202, R130) -/
  | bcs (rr : Byte)
  /-- `BEQ $rr` (R203, R130) -/
  | beq (rr : Byte)
  /-- `BNE $rr` (R204, R130) -/
  | bne (rr : Byte)
  /-- `BMI $rr` (R205, R130) -/
  | bmi (rr : Byte)
  /-- `BPL $rr` (R206, R130) -/
  | bpl (rr : Byte)
  /-- `BVC $rr` (R207, R130) -/
  | bvc (rr : Byte)
  /-- `BVS $rr` (R208, R130) -/
  | bvs (rr : Byte)
  /-- `JMP $hhll` (R209, R124) -/
  | jmpAbs (ww : Word)
  /-- `JMP ($hhll)` (R209, R127) -/
  | jmpInd (ww : Word)
  -- stack, subroutines, break, return (46_stack_subroutine.md)
  /-- `PHA` (R223, R118) -/
  | pha
  /-- `PHP` (R224, R118) -/
  | php
  /-- `PLA` (R225, R118) -/
  | pla
  /-- `PLP` (R226, R118) -/
  | plp
  /-- `JSR $hhll` (R227, R124) -/
  | jsr (ww : Word)
  /-- `RTS` (R228, R118) -/
  | rts
  /-- `BRK` (R229, R118) -/
  | brk
  /-- `RTI` (R230, R118) -/
  | rti
  -- transfers, increments, flags, NOP (47_transfer_incdec_flags.md)
  /-- `TAX` (R240, R118) -/
  | tax
  /-- `TAY` (R241, R118) -/
  | tay
  /-- `TXA` (R242, R118) -/
  | txa
  /-- `TYA` (R243, R118) -/
  | tya
  /-- `TSX` (R244, R118) -/
  | tsx
  /-- `TXS` (R245, R118) -/
  | txs
  /-- `INX` (R246, R118) -/
  | inx
  /-- `INY` (R247, R118) -/
  | iny
  /-- `DEX` (R248, R118) -/
  | dex
  /-- `DEY` (R249, R118) -/
  | dey
  /-- `INC $nn` (R250, R121) -/
  | incZp (nn : Byte)
  /-- `INC $nn,X` (R250, R122) -/
  | incZpx (nn : Byte)
  /-- `INC $hhll` (R250, R124) -/
  | incAbs (ww : Word)
  /-- `INC $hhll,X` (R250, R125) -/
  | incAbsx (ww : Word)
  /-- `DEC $nn` (R251, R121) -/
  | decZp (nn : Byte)
  /-- `DEC $nn,X` (R251, R122) -/
  | decZpx (nn : Byte)
  /-- `DEC $hhll` (R251, R124) -/
  | decAbs (ww : Word)
  /-- `DEC $hhll,X` (R251, R125) -/
  | decAbsx (ww : Word)
  /-- `CLC` (R252, R118) -/
  | clc
  /-- `SEC` (R253, R118) -/
  | sec
  /-- `CLI` (R254, R118) -/
  | cli
  /-- `SEI` (R255, R118) -/
  | sei
  /-- `CLV` (R256, R118) -/
  | clv
  /-- `CLD` (R257, R118) -/
  | cld
  /-- `SED` (R258, R118) -/
  | sed
  /-- `NOP` (R259, R118) -/
  | nop
  deriving DecidableEq, Repr

end Sys2Proof
end

