-- ==== Sys2Proof/Decode.lean ====
section
/-!
DEFINITION. Decoding and encoding (30_encoding.md R90–R95, 40_fetch_decode_addressing.md R112). The
opcode byte alone selects the instruction and its number of operand bytes; every byte without a row is
refused by name. The opcode map is a list of rows, one per populated entry of R94.
-/
namespace Sys2Proof

/-- What an opcode byte selects (R91): an instruction with no operand byte, with one, or with two. -/
inductive Shape where
  | plain (i : Instr)
  | byte (mk : Byte → Instr)
  | word (mk : Word → Instr)

/-- The length of the instruction, opcode byte and operand bytes (R91, R93). -/
def Shape.length : Shape → Nat
  | .plain _ => 1
  | .byte _ => 2
  | .word _ => 3

/-- A row of the opcode map: the opcode byte and what it selects. -/
abbrev OpcodeRow := Byte × Shape

/-- The rows of 41_load_store.md: load and store. -/
def opcodeRowsLoadStore : List OpcodeRow :=
  [ (0xA9#8, .byte .ldaImm), (0xA5#8, .byte .ldaZp), (0xB5#8, .byte .ldaZpx),
    (0xAD#8, .word .ldaAbs), (0xBD#8, .word .ldaAbsx), (0xB9#8, .word .ldaAbsy),
    (0xA1#8, .byte .ldaIndx), (0xB1#8, .byte .ldaIndy), (0xA2#8, .byte .ldxImm),
    (0xA6#8, .byte .ldxZp), (0xB6#8, .byte .ldxZpy), (0xAE#8, .word .ldxAbs),
    (0xBE#8, .word .ldxAbsy), (0xA0#8, .byte .ldyImm), (0xA4#8, .byte .ldyZp),
    (0xB4#8, .byte .ldyZpx), (0xAC#8, .word .ldyAbs), (0xBC#8, .word .ldyAbsx),
    (0x85#8, .byte .staZp), (0x95#8, .byte .staZpx), (0x8D#8, .word .staAbs),
    (0x9D#8, .word .staAbsx), (0x99#8, .word .staAbsy), (0x81#8, .byte .staIndx),
    (0x91#8, .byte .staIndy), (0x86#8, .byte .stxZp), (0x96#8, .byte .stxZpy),
    (0x8E#8, .word .stxAbs), (0x84#8, .byte .styZp), (0x94#8, .byte .styZpx),
    (0x8C#8, .word .styAbs) ]

/-- The rows of 42_arithmetic_logic.md: arithmetic and logic. -/
def opcodeRowsArith : List OpcodeRow :=
  [ (0x69#8, .byte .adcImm), (0x65#8, .byte .adcZp), (0x75#8, .byte .adcZpx),
    (0x6D#8, .word .adcAbs), (0x7D#8, .word .adcAbsx), (0x79#8, .word .adcAbsy),
    (0x61#8, .byte .adcIndx), (0x71#8, .byte .adcIndy), (0xE9#8, .byte .sbcImm),
    (0xE5#8, .byte .sbcZp), (0xF5#8, .byte .sbcZpx), (0xED#8, .word .sbcAbs),
    (0xFD#8, .word .sbcAbsx), (0xF9#8, .word .sbcAbsy), (0xE1#8, .byte .sbcIndx),
    (0xF1#8, .byte .sbcIndy), (0x29#8, .byte .andImm), (0x25#8, .byte .andZp),
    (0x35#8, .byte .andZpx), (0x2D#8, .word .andAbs), (0x3D#8, .word .andAbsx),
    (0x39#8, .word .andAbsy), (0x21#8, .byte .andIndx), (0x31#8, .byte .andIndy),
    (0x09#8, .byte .oraImm), (0x05#8, .byte .oraZp), (0x15#8, .byte .oraZpx),
    (0x0D#8, .word .oraAbs), (0x1D#8, .word .oraAbsx), (0x19#8, .word .oraAbsy),
    (0x01#8, .byte .oraIndx), (0x11#8, .byte .oraIndy), (0x49#8, .byte .eorImm),
    (0x45#8, .byte .eorZp), (0x55#8, .byte .eorZpx), (0x4D#8, .word .eorAbs),
    (0x5D#8, .word .eorAbsx), (0x59#8, .word .eorAbsy), (0x41#8, .byte .eorIndx),
    (0x51#8, .byte .eorIndy) ]

/-- The rows of 43_shift_rotate.md: shifts and rotates. -/
def opcodeRowsShift : List OpcodeRow :=
  [ (0x0A#8, .plain .aslAcc), (0x06#8, .byte .aslZp), (0x16#8, .byte .aslZpx),
    (0x0E#8, .word .aslAbs), (0x1E#8, .word .aslAbsx), (0x4A#8, .plain .lsrAcc),
    (0x46#8, .byte .lsrZp), (0x56#8, .byte .lsrZpx), (0x4E#8, .word .lsrAbs),
    (0x5E#8, .word .lsrAbsx), (0x2A#8, .plain .rolAcc), (0x26#8, .byte .rolZp),
    (0x36#8, .byte .rolZpx), (0x2E#8, .word .rolAbs), (0x3E#8, .word .rolAbsx),
    (0x6A#8, .plain .rorAcc), (0x66#8, .byte .rorZp), (0x76#8, .byte .rorZpx),
    (0x6E#8, .word .rorAbs), (0x7E#8, .word .rorAbsx) ]

/-- The rows of 44_compare_bit.md: compare and bit test. -/
def opcodeRowsCompare : List OpcodeRow :=
  [ (0xC9#8, .byte .cmpImm), (0xC5#8, .byte .cmpZp), (0xD5#8, .byte .cmpZpx),
    (0xCD#8, .word .cmpAbs), (0xDD#8, .word .cmpAbsx), (0xD9#8, .word .cmpAbsy),
    (0xC1#8, .byte .cmpIndx), (0xD1#8, .byte .cmpIndy), (0xE0#8, .byte .cpxImm),
    (0xE4#8, .byte .cpxZp), (0xEC#8, .word .cpxAbs), (0xC0#8, .byte .cpyImm),
    (0xC4#8, .byte .cpyZp), (0xCC#8, .word .cpyAbs), (0x24#8, .byte .bitZp),
    (0x2C#8, .word .bitAbs) ]

/-- The rows of 45_branch_jump.md: branches and jumps. -/
def opcodeRowsBranch : List OpcodeRow :=
  [ (0x90#8, .byte .bcc), (0xB0#8, .byte .bcs), (0xF0#8, .byte .beq), (0xD0#8, .byte .bne),
    (0x30#8, .byte .bmi), (0x10#8, .byte .bpl), (0x50#8, .byte .bvc), (0x70#8, .byte .bvs),
    (0x4C#8, .word .jmpAbs), (0x6C#8, .word .jmpInd) ]

/-- The rows of 46_stack_subroutine.md: stack, subroutines, break, return. -/
def opcodeRowsStack : List OpcodeRow :=
  [ (0x48#8, .plain .pha), (0x08#8, .plain .php), (0x68#8, .plain .pla), (0x28#8, .plain .plp),
    (0x20#8, .word .jsr), (0x60#8, .plain .rts), (0x00#8, .plain .brk), (0x40#8, .plain .rti) ]

/-- The rows of 47_transfer_incdec_flags.md: transfers, increments, flags, NOP. -/
def opcodeRowsTransfer : List OpcodeRow :=
  [ (0xAA#8, .plain .tax), (0xA8#8, .plain .tay), (0x8A#8, .plain .txa), (0x98#8, .plain .tya),
    (0xBA#8, .plain .tsx), (0x9A#8, .plain .txs), (0xE8#8, .plain .inx), (0xC8#8, .plain .iny),
    (0xCA#8, .plain .dex), (0x88#8, .plain .dey), (0xE6#8, .byte .incZp), (0xF6#8, .byte .incZpx),
    (0xEE#8, .word .incAbs), (0xFE#8, .word .incAbsx), (0xC6#8, .byte .decZp),
    (0xD6#8, .byte .decZpx), (0xCE#8, .word .decAbs), (0xDE#8, .word .decAbsx),
    (0x18#8, .plain .clc), (0x38#8, .plain .sec), (0x58#8, .plain .cli), (0x78#8, .plain .sei),
    (0xB8#8, .plain .clv), (0xD8#8, .plain .cld), (0xF8#8, .plain .sed), (0xEA#8, .plain .nop) ]

/-- The opcode map of R94, all 151 populated entries. -/
def opcodeRows : List OpcodeRow :=
  opcodeRowsLoadStore ++ opcodeRowsArith ++ opcodeRowsShift ++ opcodeRowsCompare ++
  opcodeRowsBranch ++ opcodeRowsStack ++ opcodeRowsTransfer

/-- The row an opcode byte has in a list of rows. -/
def lookupOpcode : List OpcodeRow → Byte → Option Shape
  | [], _ => none
  | (b, sh) :: rest, op => if b = op then some sh else lookupOpcode rest op

/-- `OpcodeTable[op]` (R112): `none` for the 105 unpopulated bytes of R94. -/
def opcodeShape (op : Byte) : Option Shape := lookupOpcode opcodeRows op

/-- `hh:ll`, the 16-bit operand with low byte `ll` and high byte `hh` (R92). -/
def operandWord (ll hh : Byte) : Word := hh ++ ll

/-- The low byte of a 16-bit operand. -/
def operandLow (ww : Word) : Byte := ww.extractLsb' 0 8

/-- The high byte of a 16-bit operand. -/
def operandHigh (ww : Word) : Byte := ww.extractLsb' 8 8

/-- Why a sequence of bytes is no instruction. -/
inductive DecodeError where
  /-- There is no byte at all. -/
  | empty
  /-- The opcode byte has no entry in the opcode map (R94, R112). -/
  | illegalOpcode (op : Byte)
  /-- The bytes end before the instruction's operand bytes do (R93). -/
  | truncated (op : Byte)
  deriving DecidableEq, Repr

/-- Decoding (R90–R93): the instruction at the head of the bytes, and the bytes after it. -/
def decode : List Byte → Except DecodeError (Instr × List Byte)
  | [] => .error .empty
  | op :: rest =>
    match opcodeShape op, rest with
    | none, _ => .error (.illegalOpcode op)
    | some (.plain i), _ => .ok (i, rest)
    | some (.byte mk), nn :: rest' => .ok (mk nn, rest')
    | some (.word mk), ll :: hh :: rest' => .ok (mk (operandWord ll hh), rest')
    | some (.byte _), [] => .error (.truncated op)
    | some (.word _), [] => .error (.truncated op)
    | some (.word _), [_] => .error (.truncated op)

/-- An opcode byte followed by a 16-bit operand, low byte first (R91). -/
def encodeWord (op : Byte) (ww : Word) : List Byte := [op, operandLow ww, operandHigh ww]

/-- Encoding (R91, R94): the bytes of an instruction, in the order of their addresses. -/
def encode : Instr → List Byte
  | .ldaImm nn => [0xA9#8, nn]
  | .ldaZp nn => [0xA5#8, nn]
  | .ldaZpx nn => [0xB5#8, nn]
  | .ldaAbs ww => encodeWord 0xAD#8 ww
  | .ldaAbsx ww => encodeWord 0xBD#8 ww
  | .ldaAbsy ww => encodeWord 0xB9#8 ww
  | .ldaIndx nn => [0xA1#8, nn]
  | .ldaIndy nn => [0xB1#8, nn]
  | .ldxImm nn => [0xA2#8, nn]
  | .ldxZp nn => [0xA6#8, nn]
  | .ldxZpy nn => [0xB6#8, nn]
  | .ldxAbs ww => encodeWord 0xAE#8 ww
  | .ldxAbsy ww => encodeWord 0xBE#8 ww
  | .ldyImm nn => [0xA0#8, nn]
  | .ldyZp nn => [0xA4#8, nn]
  | .ldyZpx nn => [0xB4#8, nn]
  | .ldyAbs ww => encodeWord 0xAC#8 ww
  | .ldyAbsx ww => encodeWord 0xBC#8 ww
  | .staZp nn => [0x85#8, nn]
  | .staZpx nn => [0x95#8, nn]
  | .staAbs ww => encodeWord 0x8D#8 ww
  | .staAbsx ww => encodeWord 0x9D#8 ww
  | .staAbsy ww => encodeWord 0x99#8 ww
  | .staIndx nn => [0x81#8, nn]
  | .staIndy nn => [0x91#8, nn]
  | .stxZp nn => [0x86#8, nn]
  | .stxZpy nn => [0x96#8, nn]
  | .stxAbs ww => encodeWord 0x8E#8 ww
  | .styZp nn => [0x84#8, nn]
  | .styZpx nn => [0x94#8, nn]
  | .styAbs ww => encodeWord 0x8C#8 ww
  | .adcImm nn => [0x69#8, nn]
  | .adcZp nn => [0x65#8, nn]
  | .adcZpx nn => [0x75#8, nn]
  | .adcAbs ww => encodeWord 0x6D#8 ww
  | .adcAbsx ww => encodeWord 0x7D#8 ww
  | .adcAbsy ww => encodeWord 0x79#8 ww
  | .adcIndx nn => [0x61#8, nn]
  | .adcIndy nn => [0x71#8, nn]
  | .sbcImm nn => [0xE9#8, nn]
  | .sbcZp nn => [0xE5#8, nn]
  | .sbcZpx nn => [0xF5#8, nn]
  | .sbcAbs ww => encodeWord 0xED#8 ww
  | .sbcAbsx ww => encodeWord 0xFD#8 ww
  | .sbcAbsy ww => encodeWord 0xF9#8 ww
  | .sbcIndx nn => [0xE1#8, nn]
  | .sbcIndy nn => [0xF1#8, nn]
  | .andImm nn => [0x29#8, nn]
  | .andZp nn => [0x25#8, nn]
  | .andZpx nn => [0x35#8, nn]
  | .andAbs ww => encodeWord 0x2D#8 ww
  | .andAbsx ww => encodeWord 0x3D#8 ww
  | .andAbsy ww => encodeWord 0x39#8 ww
  | .andIndx nn => [0x21#8, nn]
  | .andIndy nn => [0x31#8, nn]
  | .oraImm nn => [0x09#8, nn]
  | .oraZp nn => [0x05#8, nn]
  | .oraZpx nn => [0x15#8, nn]
  | .oraAbs ww => encodeWord 0x0D#8 ww
  | .oraAbsx ww => encodeWord 0x1D#8 ww
  | .oraAbsy ww => encodeWord 0x19#8 ww
  | .oraIndx nn => [0x01#8, nn]
  | .oraIndy nn => [0x11#8, nn]
  | .eorImm nn => [0x49#8, nn]
  | .eorZp nn => [0x45#8, nn]
  | .eorZpx nn => [0x55#8, nn]
  | .eorAbs ww => encodeWord 0x4D#8 ww
  | .eorAbsx ww => encodeWord 0x5D#8 ww
  | .eorAbsy ww => encodeWord 0x59#8 ww
  | .eorIndx nn => [0x41#8, nn]
  | .eorIndy nn => [0x51#8, nn]
  | .aslAcc => [0x0A#8]
  | .aslZp nn => [0x06#8, nn]
  | .aslZpx nn => [0x16#8, nn]
  | .aslAbs ww => encodeWord 0x0E#8 ww
  | .aslAbsx ww => encodeWord 0x1E#8 ww
  | .lsrAcc => [0x4A#8]
  | .lsrZp nn => [0x46#8, nn]
  | .lsrZpx nn => [0x56#8, nn]
  | .lsrAbs ww => encodeWord 0x4E#8 ww
  | .lsrAbsx ww => encodeWord 0x5E#8 ww
  | .rolAcc => [0x2A#8]
  | .rolZp nn => [0x26#8, nn]
  | .rolZpx nn => [0x36#8, nn]
  | .rolAbs ww => encodeWord 0x2E#8 ww
  | .rolAbsx ww => encodeWord 0x3E#8 ww
  | .rorAcc => [0x6A#8]
  | .rorZp nn => [0x66#8, nn]
  | .rorZpx nn => [0x76#8, nn]
  | .rorAbs ww => encodeWord 0x6E#8 ww
  | .rorAbsx ww => encodeWord 0x7E#8 ww
  | .cmpImm nn => [0xC9#8, nn]
  | .cmpZp nn => [0xC5#8, nn]
  | .cmpZpx nn => [0xD5#8, nn]
  | .cmpAbs ww => encodeWord 0xCD#8 ww
  | .cmpAbsx ww => encodeWord 0xDD#8 ww
  | .cmpAbsy ww => encodeWord 0xD9#8 ww
  | .cmpIndx nn => [0xC1#8, nn]
  | .cmpIndy nn => [0xD1#8, nn]
  | .cpxImm nn => [0xE0#8, nn]
  | .cpxZp nn => [0xE4#8, nn]
  | .cpxAbs ww => encodeWord 0xEC#8 ww
  | .cpyImm nn => [0xC0#8, nn]
  | .cpyZp nn => [0xC4#8, nn]
  | .cpyAbs ww => encodeWord 0xCC#8 ww
  | .bitZp nn => [0x24#8, nn]
  | .bitAbs ww => encodeWord 0x2C#8 ww
  | .bcc rr => [0x90#8, rr]
  | .bcs rr => [0xB0#8, rr]
  | .beq rr => [0xF0#8, rr]
  | .bne rr => [0xD0#8, rr]
  | .bmi rr => [0x30#8, rr]
  | .bpl rr => [0x10#8, rr]
  | .bvc rr => [0x50#8, rr]
  | .bvs rr => [0x70#8, rr]
  | .jmpAbs ww => encodeWord 0x4C#8 ww
  | .jmpInd ww => encodeWord 0x6C#8 ww
  | .pha => [0x48#8]
  | .php => [0x08#8]
  | .pla => [0x68#8]
  | .plp => [0x28#8]
  | .jsr ww => encodeWord 0x20#8 ww
  | .rts => [0x60#8]
  | .brk => [0x00#8]
  | .rti => [0x40#8]
  | .tax => [0xAA#8]
  | .tay => [0xA8#8]
  | .txa => [0x8A#8]
  | .tya => [0x98#8]
  | .tsx => [0xBA#8]
  | .txs => [0x9A#8]
  | .inx => [0xE8#8]
  | .iny => [0xC8#8]
  | .dex => [0xCA#8]
  | .dey => [0x88#8]
  | .incZp nn => [0xE6#8, nn]
  | .incZpx nn => [0xF6#8, nn]
  | .incAbs ww => encodeWord 0xEE#8 ww
  | .incAbsx ww => encodeWord 0xFE#8 ww
  | .decZp nn => [0xC6#8, nn]
  | .decZpx nn => [0xD6#8, nn]
  | .decAbs ww => encodeWord 0xCE#8 ww
  | .decAbsx ww => encodeWord 0xDE#8 ww
  | .clc => [0x18#8]
  | .sec => [0x38#8]
  | .cli => [0x58#8]
  | .sei => [0x78#8]
  | .clv => [0xB8#8]
  | .cld => [0xD8#8]
  | .sed => [0xF8#8]
  | .nop => [0xEA#8]

/-- The bytes of the opcode table's numbering: bit 0 is the least significant bit of the first byte,
and bits at and above `nbits` are 0. Three bytes, the longest instruction (R91). -/
def tableBytes (nbits w : Nat) : List Byte :=
  [ BitVec.ofNat 8 (w % 2 ^ nbits), BitVec.ofNat 8 (w % 2 ^ nbits / 256),
    BitVec.ofNat 8 (w % 2 ^ nbits / 65536) ]

/-- The instruction the decoder reads from a word of the opcode table (log 13). -/
def decodeTableWord (nbits w : Nat) : Option Instr :=
  match decode (tableBytes nbits w) with
  | .ok (i, _) => some i
  | .error _ => none

end Sys2Proof
end

