-- ==== Sys2Proof/Config.lean ====
section
/-!
DEFINITION. What is fixed for a launch: the named parameters of 00_scope.md R6, the shapes of the
bus configuration (20_memory.md R51–R57, R63), and the one free value, `Config.externalRead`.
-/
namespace Sys2Proof

/-- `DECIMAL_POLICY` (R6, R161): what ADC and SBC do when D = 1. -/
inductive DecimalPolicy where
  | binary
  | refuse
  deriving DecidableEq, Repr

/-- The named parameters of R6 that steer a step. `PLATFORM_TARGETS` and `PRG_IMAGE` are arguments
of the launch, `EXTERNAL_READ` is `Config.externalRead`. -/
structure Params where
  /-- `ZP_INDEX_WRAP` (R117). -/
  zpIndexWrap : Bool
  /-- `READ16_PAGE_WRAP` (R61). -/
  read16PageWrap : Bool
  /-- `DECIMAL_POLICY` (R161). -/
  decimal : DecimalPolicy
  deriving DecidableEq, Repr

/-- The spec's default of each parameter (R6). -/
def Params.default : Params :=
  { zpIndexWrap := true, read16PageWrap := false, decimal := .binary }

/-- A half-open range of addresses `[lo, hi)` (R55). -/
structure Range where
  lo : Nat
  hi : Nat
  deriving DecidableEq, Repr

/-- The number of addresses of a range. -/
def Range.size (r : Range) : Nat := r.hi - r.lo

/-- The kinds of memory target (R52, R53, R54). An external target carries the number that tells it
from the other external targets. -/
inductive Target where
  | ram
  | io
  | external (id : Nat)
  deriving DecidableEq, Repr

/-- One call of `attach(range, target)` (R55). -/
structure Attachment where
  range : Range
  target : Target
  deriving DecidableEq, Repr

/-- Part of the mirror table (R31, R56): `count` ranges of `len` addresses each, laid end to end from
`lo`, every one of them redirected pairwise onto the `len` addresses from `canon`. -/
structure Mirror where
  lo : Nat
  canon : Nat
  len : Nat
  count : Nat
  deriving DecidableEq, Repr

/-- The first address above a run of mirror ranges. -/
def Mirror.hi (m : Mirror) : Nat := m.lo + m.len * m.count

/-- The default `PLATFORM_TARGETS` (R63): internal RAM, the I/O register block, the PRG block; nothing
at 0x4000–0x7FFF. In the order in which the platform attaches them. -/
def Config.platformTargets : List Attachment :=
  [ { range := { lo := 0x0000, hi := 0x0800 }, target := .ram },
    { range := { lo := 0x2000, hi := 0x2008 }, target := .io },
    { range := { lo := 0x8000, hi := 0x10000 }, target := .ram } ]

/-- The direction of a bus access (R30, R59, R60). -/
inductive Dir where
  | read
  | write
  deriving DecidableEq, Repr

/-- One access forwarded to an external target (R54, R72): the target, the canonical address, the
direction, and the byte read or written. -/
structure ExtAccess where
  target : Nat
  addr : Word
  dir : Dir
  value : Byte
  deriving DecidableEq, Repr

/-- FREE VALUE (DESIGN CHOICE, log 7): `EXTERNAL_READ` (R6, R54), the byte an external target answers
to a read, given the target, the canonical address and the accesses it and the other external targets
have had, newest first. It has no body, so every claim holds whatever the peripherals answer. -/
opaque Config.externalRead (target : Nat) (addr : Word) (history : List ExtAccess) : Byte

end Sys2Proof
end

