-- ==== Sys2Proof/Machine/State.lean ====
section
/-!
DEFINITION. The state of the core (10_state.md R20–R35) as plain data, the reasons a step can stop, and
the state after reset. INVENTORY.md, '## State', lists every field with its rule and reset value.
-/
namespace Sys2Proof.Machine

/-- The status register P (R23), one field per stored flag. Bit 5 is hardwired to 1 and has no storage
(R24): `Status.toByte` supplies it (DEDUCED, log 8). -/
structure Status where
  /-- Bit 7, negative. -/
  n : Bool
  /-- Bit 6, overflow. -/
  v : Bool
  /-- Bit 4, break: a stored bit that reset alone writes and nothing reads (R25). -/
  b : Bool
  /-- Bit 3, decimal. -/
  d : Bool
  /-- Bit 2, interrupt-disable. -/
  i : Bool
  /-- Bit 1, zero. -/
  z : Bool
  /-- Bit 0, carry. -/
  c : Bool
  deriving DecidableEq, Repr

/-- The general registers (R20). -/
inductive Reg where
  | a
  | x
  | y
  deriving DecidableEq, Repr

/-- The fault record (R30): what InvalidOpcode and BusFault leave for the host. The address of a
BusFault is the one issued, before mirror resolution (R271). -/
inductive FaultRecord where
  | invalidOpcode (op : Byte) (pc : Word)
  | busFault (addr : Word) (dir : Dir)
  deriving DecidableEq, Repr

/-- The run state (R29). The fault record is held only while the core is Faulted (R30), so it is the
argument of that constructor. -/
inductive RunState where
  | running
  | halted
  | faulted (record : FaultRecord)
  deriving DecidableEq, Repr

/-- The storage behind the bus: (canonical address, byte) pairs, addresses strictly rising, no entry
equal to what an unlisted address reads as (log 5, log 6). -/
abbrev Memory := List Host.Cell

/-- The whole state: registers, run state, bus tables, storage, and the launch's parameters. -/
structure State where
  /-- Accumulator (R20). -/
  a : Byte
  /-- Index register X (R20). -/
  x : Byte
  /-- Index register Y (R20). -/
  y : Byte
  /-- Stack pointer (R28). -/
  sp : Byte
  /-- Program counter (R22). -/
  pc : Word
  /-- Status register (R23). -/
  p : Status
  /-- Run state and fault record (R29, R30). -/
  run : RunState
  /-- Attachment table, latest call first (R31, R55). -/
  attach : List Attachment
  /-- Mirror table, latest call first (R31, R56; log 10). -/
  mirrors : List Mirror
  /-- Storage of the RAM and I/O register blocks (R32). -/
  mem : Memory
  /-- The named parameters of the launch (R6; log 1). No step writes them. -/
  params : Params
  /-- The model's own field (log 7): the accesses forwarded to external targets, newest first, the
  history that `EXTERNAL_READ` is a function of (R6, R54). -/
  ext : List ExtAccess
  deriving DecidableEq, Repr

/-- Why the machine stops with no next state. -/
inductive Fault where
  /-- Raised by `step` in the run state Halted: no step is defined (R110, R281; 93 #20 `stuck`). Safe:
  the model says nothing of a step the spec does not define (log 3). -/
  | stepAfterHalt
  /-- Raised by `step` in the run state Faulted, with the record held there (R110, R281). Safe (log 3). -/
  | stepAfterFault (record : FaultRecord)
  deriving DecidableEq, Repr

/-- What the model gives no meaning to, by name. -/
inductive Refusal where
  /-- Raised by `exec` for an instruction that has no meaning in the model; none is left. Safe. -/
  | notModelled (mnemonic : String)
  /-- Raised by ADC and SBC, and by the step that dispatches one, with D = 1 under
  `DECIMAL_POLICY = refuse` (R161): the spec's own refusal. Safe. -/
  | decimalMode
  /-- Raised by `attachAll`: a range that does not lie in the 64 KB space (R55). Safe. -/
  | attachRange
  /-- Raised by `mirrorRanges`: a range that does not lie in the 64 KB space (R31, R56). Safe. -/
  | mirrorRange
  /-- Raised by `mirrorRanges`: ranges of unequal length (R56). Safe. -/
  | mirrorLength
  /-- Raised by `mirrorRanges`: a canonical address that is itself a mirror address (R57). Safe. -/
  | mirrorChain
  /-- Raised by `setup`: the bus has been set up already (R281, R290). Safe. -/
  | usedBus
  /-- Raised by `setup`: an I/O register block has entries (R290). Safe. -/
  | ioNotEmpty
  /-- Raised by `setup`: the PRG image has neither 16384 nor 32768 bytes (R290). Safe. -/
  | imageLength
  deriving DecidableEq, Repr

/-- What a step, or an instruction's meaning, answers. -/
abbrev Answer := Host.Outcome State Fault Refusal

/-- P after setup, 0x34 (R34, R294; C1): B and I set, bit 5 hardwired. -/
def Status.reset : Status :=
  { n := false, v := false, b := true, d := false, i := true, z := false, c := false }

/-- The machine right after reset, that is, after setup (R34, R297) on the default map with the default
parameters and the blank 32 KB image (DESIGN CHOICE, log 4): the registers of R294, PC from a reset
vector of 0x0000, the RAM and I/O mirrors of R64 and R65, and no byte listed. -/
def State.reset : State :=
  { a := 0x00#8
    x := 0x00#8
    y := 0x00#8
    sp := 0xFD#8
    pc := 0x0000#16
    p := Status.reset
    run := .running
    attach := Config.platformTargets.reverse
    mirrors :=
      [ { lo := 0x2008, canon := 0x2000, len := 0x0008, count := 1023 },
        { lo := 0x0800, canon := 0x0000, len := 0x0800, count := 3 } ]
    mem := []
    params := Params.default
    ext := [] }

end Sys2Proof.Machine
end

