-- ==== Sys2Proof/Machine/Flags.lean ====
section
/-!
DEFINITION. The status register and every flag computation of the spec: P as a byte (R23, R24), the load
of P from a pulled byte (R222), Z and N (R116), the adder (R160), the comparator (R190), the bit test
(R194), and the shifts' result and carry (R181–R184).
-/
namespace Sys2Proof.Machine

/-- P as a whole, the u8 `N<<7 | V<<6 | 1<<5 | B<<4 | D<<3 | I<<2 | Z<<1 | C` (R23); bit 5 reads 1 (R24). -/
def Status.toByte (p : Status) : Byte :=
  BitVec.ofBool p.n ++ BitVec.ofBool p.v ++ 1#1 ++ BitVec.ofBool p.b ++ BitVec.ofBool p.d ++
    BitVec.ofBool p.i ++ BitVec.ofBool p.z ++ BitVec.ofBool p.c

/-- `StatusFromStack(v)` (R222): six flags from the byte; B keeps its value and bit 5 stays 1. -/
def Status.fromStack (p : Status) (v : Byte) : Status :=
  { p with
    n := v.getLsbD 7, v := v.getLsbD 6, d := v.getLsbD 3
    i := v.getLsbD 2, z := v.getLsbD 1, c := v.getLsbD 0 }

/-- `P.C <- v`. -/
def Status.setC (p : Status) (v : Bool) : Status := { p with c := v }

/-- `P.I <- v`. -/
def Status.setI (p : Status) (v : Bool) : Status := { p with i := v }

/-- `P.D <- v`. -/
def Status.setD (p : Status) (v : Bool) : Status := { p with d := v }

/-- `P.V <- v`. -/
def Status.setV (p : Status) (v : Bool) : Status := { p with v := v }

/-- `SetZN(r)` (R116): `P.Z <- bool(r = 0); P.N <- r[7]`. -/
def Status.setZN (p : Status) (r : Byte) : Status :=
  { p with z := decide (r = 0#8), n := r.getLsbD 7 }

/-- The carry as a number. -/
def carryIn (c : Bool) : Nat := if c then 1 else 0

/-- `AddWithCarry(a, b, c)` (R160): the 8-bit sum, the carry out and the signed overflow. -/
def addWithCarry (a b : Byte) (c : Bool) : Byte × Bool × Bool :=
  let sum := a.toNat + b.toNat + carryIn c
  let r := BitVec.ofNat 8 sum
  (r, decide (sum > 255),
    decide (a.getLsbD 7 = b.getLsbD 7) && decide (a.getLsbD 7 ≠ r.getLsbD 7))

/-- The flags an addition leaves (R162, R163): C, V, then Z and N from the sum. -/
def Status.afterAdd (p : Status) (sum : Byte × Bool × Bool) : Status :=
  ((p.setC sum.2.1).setV sum.2.2).setZN sum.1

/-- `Compare(reg, v)` (R190): C unsigned, Z and N from the difference; V is not changed. -/
def Status.compare (p : Status) (reg v : Byte) : Status :=
  (p.setC (decide (v.toNat ≤ reg.toNat))).setZN (reg - v)

/-- The flags of BIT (R194): Z from `a & v`, N and V from bits 7 and 6 of `v`. -/
def Status.bitTest (p : Status) (a v : Byte) : Status :=
  { p with z := decide (a &&& v = 0#8), n := v.getLsbD 7, v := v.getLsbD 6 }

/-- Shift left by one (R181, R183): `c` comes in at bit 0 and bit 7 goes out. -/
def shiftLeft (c : Bool) (v : Byte) : Byte × Bool :=
  ((v <<< 1) ||| (BitVec.ofBool c).setWidth 8, v.getLsbD 7)

/-- Shift right by one (R182, R184): `c` comes in at bit 7 and bit 0 goes out. -/
def shiftRight (c : Bool) (v : Byte) : Byte × Bool :=
  ((v >>> 1) ||| ((BitVec.ofBool c).setWidth 8 <<< 7), v.getLsbD 0)

/-- The flags of a shift (R180): C is the bit shifted out, Z and N from the result. -/
def Status.afterShift (p : Status) (rc : Byte × Bool) : Status := (p.setC rc.2).setZN rc.1

end Sys2Proof.Machine
end

