-- ==== Sys2Proof/Machine/Ops.lean ====
section
/-!
DEFINITION. The named operations over memory, the bus, the registers and the stack (20_memory.md R50–R78,
46_stack_subroutine.md R220–R222), and the events that end a run: InvalidOpcode, BusFault and
BreakSignal (60_exceptions.md R270–R272).
-/
namespace Sys2Proof.Machine

/-! ### Storage -/

/-- What an address that no entry lists reads as: 0x00. RAM after setup (R34, R295) and the I/O register
block (R53) read so by the spec; the PRG block and other RAM blocks by DESIGN CHOICE (log 5). -/
def Memory.unlisted : Byte := 0x00#8

/-- The byte stored at a canonical address (R52, R53). -/
def Memory.read : Memory → Nat → Byte
  | [], _ => Memory.unlisted
  | (k, v) :: rest, a => if k = a then v else Memory.read rest a

/-- The storage without any entry for an address. -/
def Memory.erase : Memory → Nat → Memory
  | [], _ => []
  | (k, v) :: rest, a => if k = a then Memory.erase rest a else (k, v) :: Memory.erase rest a

/-- The storage with an entry put before the first higher address. -/
def Memory.insert : Memory → Nat → Byte → Memory
  | [], a, v => [(a, v)]
  | (k, w) :: rest, a, v =>
    if a < k then (a, v) :: (k, w) :: rest else (k, w) :: Memory.insert rest a v

/-- Storing a byte (R52, R53). The canonical form is kept: storing what an unlisted address reads as
leaves no entry. -/
def Memory.write (m : Memory) (a : Nat) (v : Byte) : Memory :=
  if v = Memory.unlisted then m.erase a else (m.erase a).insert a v

/-- The canonical form of storage: addresses strictly rising, inside the 64 KB space, no entry equal to
what an unlisted address reads as (log 6). -/
abbrev Memory.wf (m : Memory) : Prop :=
  m.Pairwise (fun c d => c.1 < d.1) ∧ ∀ c ∈ m, c.1 < 0x10000 ∧ c.2 ≠ Memory.unlisted

/-! ### Field updates -/

/-- `A <- v`. -/
def State.setA (s : State) (v : Byte) : State := { s with a := v }

/-- `X <- v`. -/
def State.setX (s : State) (v : Byte) : State := { s with x := v }

/-- `Y <- v`. -/
def State.setY (s : State) (v : Byte) : State := { s with y := v }

/-- `SP <- v`. -/
def State.setSp (s : State) (v : Byte) : State := { s with sp := v }

/-- `PC <- v`. -/
def State.setPc (s : State) (v : Word) : State := { s with pc := v }

/-- `P <- p`. -/
def State.setP (s : State) (p : Status) : State := { s with p := p }

/-- `run <- r`. -/
def State.setRun (s : State) (r : RunState) : State := { s with run := r }

/-- The storage becomes `m`. -/
def State.setMem (s : State) (m : Memory) : State := { s with mem := m }

/-- The external targets' history becomes `h`. -/
def State.setExt (s : State) (h : List ExtAccess) : State := { s with ext := h }

/-- The mirror table becomes `ms` (setup only, R31). -/
def State.setMirrors (s : State) (ms : List Mirror) : State := { s with mirrors := ms }

/-- A general register's new value, flags untouched (R20). -/
def State.setReg (s : State) (r : Reg) (v : Byte) : State :=
  match r with
  | .a => s.setA v
  | .x => s.setX v
  | .y => s.setY v

/-- `R <- v; SetZN(v)` (R116). -/
def State.putReg (s : State) (r : Reg) (v : Byte) : State :=
  (s.setReg r v).setP (s.p.setZN v)

/-- The end of ADC and SBC (R162, R163): A, C, V, Z and N from the adder on A, `v` and C. -/
def addToA (v : Byte) (s : State) : State :=
  (s.setA (addWithCarry s.a v s.p.c).1).setP (s.p.afterAdd (addWithCarry s.a v s.p.c))

/-- The end of a shift (R180): `P.C <- c; SetZN(r)`. -/
def State.setShiftFlags (s : State) (rc : Byte × Bool) : State := s.setP (s.p.afterShift rc)

/-- R161: an ADC or SBC step is refused, D being 1 under `DECIMAL_POLICY = refuse`. -/
def decimalRefused (s : State) : Bool := s.p.d && decide (s.params.decimal = .refuse)

/-! ### Events that end a run -/

/-- TAKING AN EXCEPTION (R270, R271, R277): the run state becomes Faulted and the fault record is held in
it. There is no vector, no mode and nothing pushed; PC and every other effect of the step stand as
they are (R133, R278). -/
def State.takeFault (s : State) (record : FaultRecord) : State := s.setRun (.faulted record)

/-! ### Accesses -/

/-- What a part of a step does: it gives a value and a state and the step goes on, or an access has
raised BusFault and the step ends in the state given (R8, R133). -/
inductive Acc (α : Type) where
  | ok (v : α) (s : State)
  | stop (s : State)

/-- One part of a step after another; nothing runs after a part that raised (R8). -/
def Acc.bind {α β : Type} (r : Acc α) (f : α → State → Acc β) : Acc β :=
  match r with
  | .ok v s => f v s
  | .stop s => .stop s

/-- The end of an instruction: either way the state reached is the next state (log 2). -/
def Acc.finish (r : Acc Unit) : Answer :=
  match r with
  | .ok _ s => .next s
  | .stop s => .next s

/-- Whether a run of mirror ranges redirects an address. -/
def mirrorCovers (m : Mirror) (a : Nat) : Bool := decide (m.lo ≤ a) && decide (a < m.hi)

/-- The canonical address a run of mirror ranges redirects an address to (R56): pairwise in each range. -/
def mirrorRedirect (m : Mirror) (a : Nat) : Nat := m.canon + (a - m.lo) % m.len

/-- `Resolve(a)` (R58): one lookup in the mirror table, the latest call first. -/
def resolve : List Mirror → Word → Word
  | [], a => a
  | m :: rest, a =>
    if mirrorCovers m a.toNat then BitVec.ofNat 16 (mirrorRedirect m a.toNat) else resolve rest a

/-- The target that owns a canonical address, the latest attachment first (R55, R59). -/
def owner : List Attachment → Word → Option Target
  | [], _ => none
  | t :: rest, c =>
    if t.range.lo ≤ c.toNat ∧ c.toNat < t.range.hi then some t.target else owner rest c

/-- The canonical address of an address (R58). -/
def State.canon (s : State) (a : Word) : Word := resolve s.mirrors a

/-- The target an access to an address reaches, if any (R59, R60). -/
def State.target (s : State) (a : Word) : Option Target := owner s.attach (s.canon a)

/-- `attach[c].read(c)` (R52, R53, R54): storage answers its byte and nothing else happens; an external
target answers the free value and its history grows by the access. -/
def targetRead (t : Target) (c : Word) (s : State) : Byte × State :=
  match t with
  | .ram => (s.mem.read c.toNat, s)
  | .io => (s.mem.read c.toNat, s)
  | .external id =>
    (Config.externalRead id c s.ext,
      s.setExt ({ target := id, addr := c, dir := .read,
                  value := Config.externalRead id c s.ext } :: s.ext))

/-- `attach[c].write(c, v)` (R52, R53, R54). -/
def targetWrite (t : Target) (c : Word) (v : Byte) (s : State) : State :=
  match t with
  | .ram => s.setMem (s.mem.write c.toNat v)
  | .io => s.setMem (s.mem.write c.toNat v)
  | .external id => s.setExt ({ target := id, addr := c, dir := .write, value := v } :: s.ext)

/-- `MemRead(a, 1)` (R59). -/
def memRead (a : Word) (s : State) : Acc Byte :=
  match s.target a with
  | none => .stop (s.takeFault (.busFault a .read))
  | some t => .ok (targetRead t (s.canon a) s).1 (targetRead t (s.canon a) s).2

/-- `MemWrite(a, 1, v)` (R60). -/
def memWrite (a : Word) (v : Byte) (s : State) : Acc Unit :=
  match s.target a with
  | none => .stop (s.takeFault (.busFault a .write))
  | some t => .ok () (targetWrite t (s.canon a) v s)

/-- `hi:lo` (R7). -/
def hiLo (hi lo : Byte) : Word := hi ++ lo

/-- The address of the high byte of `read16(a)` (R61): in the same page under `READ16_PAGE_WRAP`, else
the next address mod 65536. -/
def highByteAddr (pageWrap : Bool) (a : Word) : Word :=
  if pageWrap then (a &&& 0xFF00#16) ||| ((a + 1#16) &&& 0x00FF#16) else a + 1#16

/-- `read16(a)` (R61): low byte first. -/
def read16 (a : Word) (s : State) : Acc Word :=
  (memRead a s).bind fun lo s1 =>
    (memRead (highByteAddr s.params.read16PageWrap a) s1).bind fun hi s2 => .ok (hiLo hi lo) s2

/-! ### The stack -/

/-- `0x0100 + SP` (R28): always in page 1. -/
def stackAddr (sp : Byte) : Word := hiLo 0x01#8 sp

/-- `Push(v)` (R220): write, then decrement. -/
def push (v : Byte) (s : State) : Acc Unit :=
  (memWrite (stackAddr s.sp) v s).bind fun _ s1 => .ok () (s1.setSp (s1.sp - 1#8))

/-- `Pull()` (R221): increment, then read. -/
def pull (s : State) : Acc Byte := memRead (stackAddr (s.sp + 1#8)) (s.setSp (s.sp + 1#8))

/-- Two pushes, high byte first (R227). -/
def pushWord (w : Word) (s : State) : Acc Unit :=
  (push (w.extractLsb' 8 8) s).bind fun _ s1 => push (w.extractLsb' 0 8) s1

/-- Two pulls, low byte first (R228, R230). -/
def pullWord (s : State) : Acc Word :=
  (pull s).bind fun lo s1 => (pull s1).bind fun hi s2 => .ok (hiLo hi lo) s2

/-- `StatusFromStack(Pull())` (R222, R226). -/
def pullStatus (s : State) : Acc Unit :=
  (pull s).bind fun v s1 => .ok () (s1.setP (s1.p.fromStack v))

/-- BREAK (R229, R272): push P with bits 4 and 5 set, set I, and halt. Nothing else is saved and no
vector is read. -/
def takeBreak (s : State) : Acc Unit :=
  (push (s.p.toByte ||| 0x30#8) s).bind fun _ s1 =>
    .ok () ((s1.setP (s1.p.setI true)).setRun .halted)

/-- RETURN FROM INTERRUPT (R230): P, then PC low, then PC high, from the stack; no +1. -/
def returnFromInterrupt (s : State) : Acc Unit :=
  (pullStatus s).bind fun _ s1 => (pullWord s1).bind fun w s2 => .ok () (s2.setPc w)

/-! ### The result of a step -/

/-- The step's tagged result (R9). -/
inductive StepResult where
  | continues
  | haltedBreakSignal
  | fault (record : FaultRecord)
  deriving DecidableEq, Repr

/-- The result of the step that led to this state, read off its run state (R9, R113, R270–R272). -/
def State.stepResult (s : State) : StepResult :=
  match s.run with
  | .running => .continues
  | .halted => .haltedBreakSignal
  | .faulted record => .fault record

end Sys2Proof.Machine
end

