-- ==== Sys2Proof/Machine/Operands.lean ====
section
/-!
DEFINITION. Every operand form (40_fetch_decode_addressing.md R117–R131): the effective address of each
addressing mode, the read of a data operand, and the read and write of a cell (R132, read-modify-write
class). The operand bytes have been fetched already; what is left here are the pointer reads and the
data accesses, in the spec's order.
-/
namespace Sys2Proof.Machine

/-- A memory addressing mode with its operand bytes (R121–R129). -/
inductive Mode where
  | zp (nn : Byte)
  | zpx (nn : Byte)
  | zpy (nn : Byte)
  | abs (ww : Word)
  | absx (ww : Word)
  | absy (ww : Word)
  | ind (ww : Word)
  | indx (nn : Byte)
  | indy (nn : Byte)
  deriving DecidableEq, Repr

/-- A data operand (R131): the immediate byte itself, or the cell a memory mode addresses. -/
inductive Source where
  | imm (nn : Byte)
  | mem (m : Mode)
  deriving DecidableEq, Repr

/-- `zext_16(b)` (R7). -/
def zeroExtend16 (b : Byte) : Word := b.setWidth 16

/-- `sext_16(b)` mod 65536 (R7, R92). -/
def signExtend16 (b : Byte) : Word := b.signExtend 16

/-- `ZPIndex(b, r)` (R117): mod 256 under `ZP_INDEX_WRAP`, else up to 0x01FE. -/
def zpIndex (wrap : Bool) (b r : Byte) : Word :=
  if wrap then zeroExtend16 (b + r) else zeroExtend16 b + zeroExtend16 r

/-- `EffectiveAddress(mode)` (R121–R129): the pointer reads of the indirect modes happen here. -/
def effectiveAddress (m : Mode) (s : State) : Acc Word :=
  match m with
  | .zp nn => .ok (zeroExtend16 nn) s
  | .zpx nn => .ok (zpIndex s.params.zpIndexWrap nn s.x) s
  | .zpy nn => .ok (zpIndex s.params.zpIndexWrap nn s.y) s
  | .abs ww => .ok ww s
  | .absx ww => .ok (ww + zeroExtend16 s.x) s
  | .absy ww => .ok (ww + zeroExtend16 s.y) s
  | .ind ww => read16 ww s
  | .indx nn => read16 (zpIndex s.params.zpIndexWrap nn s.x) s
  | .indy nn => (read16 (zeroExtend16 nn) s).bind fun w s1 => .ok (w + zeroExtend16 s1.y) s1

/-- `ReadOperand(mode)` (R131). -/
def readOperand (src : Source) (s : State) : Acc Byte :=
  match src with
  | .imm nn => .ok nn s
  | .mem m => (effectiveAddress m s).bind fun ea s1 => memRead ea s1

/-- The read-modify-write access of R132: one read of EA, one write of `f` of the byte to it. Gives the
byte read. -/
def modifyCell (f : Byte → Byte) (m : Mode) (s : State) : Acc Byte :=
  (effectiveAddress m s).bind fun ea s1 =>
    (memRead ea s1).bind fun v s2 =>
      (memWrite ea (f v) s2).bind fun _ s3 => .ok v s3

end Sys2Proof.Machine
end

