-- ==== Sys2Proof/Machine/Arith.lean ====
section
/-!
DEFINITION. Arithmetic and logic (42_arithmetic_logic.md R160–R167): one meaning per opcode over
`addMemory` and `logic`. The adder itself is `addWithCarry` (Flags.lean).
-/
namespace Sys2Proof.Machine

/-- ADC and SBC (R161–R163): refused in decimal mode under `DECIMAL_POLICY = refuse`; else the adder on
A, the operand as `f` gives it (itself, or its complement), and C; A, C, V, Z, N from it. -/
def addMemory (f : Byte → Byte) (src : Source) (s : State) : Answer :=
  if decimalRefused s then .refused .decimalMode
  else Acc.finish ((readOperand src s).bind fun v s1 => .ok () (addToA (f v) s1))

/-- AND, ORA, EOR (R164–R166): `v <- ReadOperand(mode); A <- f(A, v); SetZN(A)`. -/
def logic (f : Byte → Byte → Byte) (src : Source) (s : State) : Answer :=
  Acc.finish ((readOperand src s).bind fun v s1 => .ok () (s1.putReg .a (f s1.a v)))

/-- `ADC #$nn` (R162, R120). -/
def execAdcImm (nn : Byte) (s : State) : Answer :=
  addMemory (fun v => v) (.imm nn) s

/-- `ADC $nn` (R162, R121). -/
def execAdcZp (nn : Byte) (s : State) : Answer :=
  addMemory (fun v => v) (.mem (.zp nn)) s

/-- `ADC $nn,X` (R162, R122). -/
def execAdcZpx (nn : Byte) (s : State) : Answer :=
  addMemory (fun v => v) (.mem (.zpx nn)) s

/-- `ADC $hhll` (R162, R124). -/
def execAdcAbs (ww : Word) (s : State) : Answer :=
  addMemory (fun v => v) (.mem (.abs ww)) s

/-- `ADC $hhll,X` (R162, R125). -/
def execAdcAbsx (ww : Word) (s : State) : Answer :=
  addMemory (fun v => v) (.mem (.absx ww)) s

/-- `ADC $hhll,Y` (R162, R126). -/
def execAdcAbsy (ww : Word) (s : State) : Answer :=
  addMemory (fun v => v) (.mem (.absy ww)) s

/-- `ADC ($nn,X)` (R162, R128). -/
def execAdcIndx (nn : Byte) (s : State) : Answer :=
  addMemory (fun v => v) (.mem (.indx nn)) s

/-- `ADC ($nn),Y` (R162, R129). -/
def execAdcIndy (nn : Byte) (s : State) : Answer :=
  addMemory (fun v => v) (.mem (.indy nn)) s

/-- `SBC #$nn` (R163, R120). -/
def execSbcImm (nn : Byte) (s : State) : Answer :=
  addMemory (fun v => ~~~v) (.imm nn) s

/-- `SBC $nn` (R163, R121). -/
def execSbcZp (nn : Byte) (s : State) : Answer :=
  addMemory (fun v => ~~~v) (.mem (.zp nn)) s

/-- `SBC $nn,X` (R163, R122). -/
def execSbcZpx (nn : Byte) (s : State) : Answer :=
  addMemory (fun v => ~~~v) (.mem (.zpx nn)) s

/-- `SBC $hhll` (R163, R124). -/
def execSbcAbs (ww : Word) (s : State) : Answer :=
  addMemory (fun v => ~~~v) (.mem (.abs ww)) s

/-- `SBC $hhll,X` (R163, R125). -/
def execSbcAbsx (ww : Word) (s : State) : Answer :=
  addMemory (fun v => ~~~v) (.mem (.absx ww)) s

/-- `SBC $hhll,Y` (R163, R126). -/
def execSbcAbsy (ww : Word) (s : State) : Answer :=
  addMemory (fun v => ~~~v) (.mem (.absy ww)) s

/-- `SBC ($nn,X)` (R163, R128). -/
def execSbcIndx (nn : Byte) (s : State) : Answer :=
  addMemory (fun v => ~~~v) (.mem (.indx nn)) s

/-- `SBC ($nn),Y` (R163, R129). -/
def execSbcIndy (nn : Byte) (s : State) : Answer :=
  addMemory (fun v => ~~~v) (.mem (.indy nn)) s

/-- `AND #$nn` (R164, R120). -/
def execAndImm (nn : Byte) (s : State) : Answer :=
  logic (fun a v => a &&& v) (.imm nn) s

/-- `AND $nn` (R164, R121). -/
def execAndZp (nn : Byte) (s : State) : Answer :=
  logic (fun a v => a &&& v) (.mem (.zp nn)) s

/-- `AND $nn,X` (R164, R122). -/
def execAndZpx (nn : Byte) (s : State) : Answer :=
  logic (fun a v => a &&& v) (.mem (.zpx nn)) s

/-- `AND $hhll` (R164, R124). -/
def execAndAbs (ww : Word) (s : State) : Answer :=
  logic (fun a v => a &&& v) (.mem (.abs ww)) s

/-- `AND $hhll,X` (R164, R125). -/
def execAndAbsx (ww : Word) (s : State) : Answer :=
  logic (fun a v => a &&& v) (.mem (.absx ww)) s

/-- `AND $hhll,Y` (R164, R126). -/
def execAndAbsy (ww : Word) (s : State) : Answer :=
  logic (fun a v => a &&& v) (.mem (.absy ww)) s

/-- `AND ($nn,X)` (R164, R128). -/
def execAndIndx (nn : Byte) (s : State) : Answer :=
  logic (fun a v => a &&& v) (.mem (.indx nn)) s

/-- `AND ($nn),Y` (R164, R129). -/
def execAndIndy (nn : Byte) (s : State) : Answer :=
  logic (fun a v => a &&& v) (.mem (.indy nn)) s

/-- `ORA #$nn` (R165, R120). -/
def execOraImm (nn : Byte) (s : State) : Answer :=
  logic (fun a v => a ||| v) (.imm nn) s

/-- `ORA $nn` (R165, R121). -/
def execOraZp (nn : Byte) (s : State) : Answer :=
  logic (fun a v => a ||| v) (.mem (.zp nn)) s

/-- `ORA $nn,X` (R165, R122). -/
def execOraZpx (nn : Byte) (s : State) : Answer :=
  logic (fun a v => a ||| v) (.mem (.zpx nn)) s

/-- `ORA $hhll` (R165, R124). -/
def execOraAbs (ww : Word) (s : State) : Answer :=
  logic (fun a v => a ||| v) (.mem (.abs ww)) s

/-- `ORA $hhll,X` (R165, R125). -/
def execOraAbsx (ww : Word) (s : State) : Answer :=
  logic (fun a v => a ||| v) (.mem (.absx ww)) s

/-- `ORA $hhll,Y` (R165, R126). -/
def execOraAbsy (ww : Word) (s : State) : Answer :=
  logic (fun a v => a ||| v) (.mem (.absy ww)) s

/-- `ORA ($nn,X)` (R165, R128). -/
def execOraIndx (nn : Byte) (s : State) : Answer :=
  logic (fun a v => a ||| v) (.mem (.indx nn)) s

/-- `ORA ($nn),Y` (R165, R129). -/
def execOraIndy (nn : Byte) (s : State) : Answer :=
  logic (fun a v => a ||| v) (.mem (.indy nn)) s

/-- `EOR #$nn` (R166, R120). -/
def execEorImm (nn : Byte) (s : State) : Answer :=
  logic (fun a v => a ^^^ v) (.imm nn) s

/-- `EOR $nn` (R166, R121). -/
def execEorZp (nn : Byte) (s : State) : Answer :=
  logic (fun a v => a ^^^ v) (.mem (.zp nn)) s

/-- `EOR $nn,X` (R166, R122). -/
def execEorZpx (nn : Byte) (s : State) : Answer :=
  logic (fun a v => a ^^^ v) (.mem (.zpx nn)) s

/-- `EOR $hhll` (R166, R124). -/
def execEorAbs (ww : Word) (s : State) : Answer :=
  logic (fun a v => a ^^^ v) (.mem (.abs ww)) s

/-- `EOR $hhll,X` (R166, R125). -/
def execEorAbsx (ww : Word) (s : State) : Answer :=
  logic (fun a v => a ^^^ v) (.mem (.absx ww)) s

/-- `EOR $hhll,Y` (R166, R126). -/
def execEorAbsy (ww : Word) (s : State) : Answer :=
  logic (fun a v => a ^^^ v) (.mem (.absy ww)) s

/-- `EOR ($nn,X)` (R166, R128). -/
def execEorIndx (nn : Byte) (s : State) : Answer :=
  logic (fun a v => a ^^^ v) (.mem (.indx nn)) s

/-- `EOR ($nn),Y` (R166, R129). -/
def execEorIndy (nn : Byte) (s : State) : Answer :=
  logic (fun a v => a ^^^ v) (.mem (.indy nn)) s

end Sys2Proof.Machine
end

