-- ==== Sys2Proof/Machine/Branch.lean ====
section
/-!
DEFINITION. Branches and jumps (45_branch_jump.md R200–R209). The operand bytes are already fetched, so
PC is the address past the instruction (R130; log 15).
-/
namespace Sys2Proof.Machine

/-- `Branch(cond)` (R200): PC moves by the sign-extended displacement when `cond` holds. -/
def branch (cond : Bool) (rr : Byte) (s : State) : Answer :=
  .next (if cond then s.setPc (s.pc + signExtend16 rr) else s)

/-- JMP (Indirect) (R209): `p <- FetchWord(); PC <- read16(p)`. -/
def jumpIndirect (ww : Word) (s : State) : Answer :=
  Acc.finish ((effectiveAddress (.ind ww) s).bind fun ea s1 => .ok () (s1.setPc ea))

/-- `BCC $rr` (R201, R130). -/
def execBcc (rr : Byte) (s : State) : Answer :=
  branch (!s.p.c) rr s

/-- `BCS $rr` (R202, R130). -/
def execBcs (rr : Byte) (s : State) : Answer :=
  branch s.p.c rr s

/-- `BEQ $rr` (R203, R130). -/
def execBeq (rr : Byte) (s : State) : Answer :=
  branch s.p.z rr s

/-- `BNE $rr` (R204, R130). -/
def execBne (rr : Byte) (s : State) : Answer :=
  branch (!s.p.z) rr s

/-- `BMI $rr` (R205, R130). -/
def execBmi (rr : Byte) (s : State) : Answer :=
  branch s.p.n rr s

/-- `BPL $rr` (R206, R130). -/
def execBpl (rr : Byte) (s : State) : Answer :=
  branch (!s.p.n) rr s

/-- `BVC $rr` (R207, R130). -/
def execBvc (rr : Byte) (s : State) : Answer :=
  branch (!s.p.v) rr s

/-- `BVS $rr` (R208, R130). -/
def execBvs (rr : Byte) (s : State) : Answer :=
  branch s.p.v rr s

/-- `JMP $hhll` (R209, R124). -/
def execJmpAbs (ww : Word) (s : State) : Answer :=
  .next (s.setPc ww)

/-- `JMP ($hhll)` (R209, R127). -/
def execJmpInd (ww : Word) (s : State) : Answer :=
  jumpIndirect ww s

end Sys2Proof.Machine
end

