-- ==== Sys2Proof/Machine/Compare.lean ====
section
/-!
DEFINITION. Compare and bit test (44_compare_bit.md R190–R194): one meaning per opcode over
`compareWith` and `bitTest`. None writes a register.
-/
namespace Sys2Proof.Machine

/-- CMP, CPX, CPY (R190–R193): `v <- ReadOperand(mode); Compare(reg, v)`. -/
def compareWith (reg : Byte) (src : Source) (s : State) : Answer :=
  Acc.finish ((readOperand src s).bind fun v s1 => .ok () (s1.setP (s1.p.compare reg v)))

/-- BIT (R194): Z from `A & v`, N and V from bits 7 and 6 of the memory byte. -/
def bitTest (src : Source) (s : State) : Answer :=
  Acc.finish ((readOperand src s).bind fun v s1 => .ok () (s1.setP (s1.p.bitTest s1.a v)))

/-- `CMP #$nn` (R191, R120). -/
def execCmpImm (nn : Byte) (s : State) : Answer :=
  compareWith s.a (.imm nn) s

/-- `CMP $nn` (R191, R121). -/
def execCmpZp (nn : Byte) (s : State) : Answer :=
  compareWith s.a (.mem (.zp nn)) s

/-- `CMP $nn,X` (R191, R122). -/
def execCmpZpx (nn : Byte) (s : State) : Answer :=
  compareWith s.a (.mem (.zpx nn)) s

/-- `CMP $hhll` (R191, R124). -/
def execCmpAbs (ww : Word) (s : State) : Answer :=
  compareWith s.a (.mem (.abs ww)) s

/-- `CMP $hhll,X` (R191, R125). -/
def execCmpAbsx (ww : Word) (s : State) : Answer :=
  compareWith s.a (.mem (.absx ww)) s

/-- `CMP $hhll,Y` (R191, R126). -/
def execCmpAbsy (ww : Word) (s : State) : Answer :=
  compareWith s.a (.mem (.absy ww)) s

/-- `CMP ($nn,X)` (R191, R128). -/
def execCmpIndx (nn : Byte) (s : State) : Answer :=
  compareWith s.a (.mem (.indx nn)) s

/-- `CMP ($nn),Y` (R191, R129). -/
def execCmpIndy (nn : Byte) (s : State) : Answer :=
  compareWith s.a (.mem (.indy nn)) s

/-- `CPX #$nn` (R192, R120). -/
def execCpxImm (nn : Byte) (s : State) : Answer :=
  compareWith s.x (.imm nn) s

/-- `CPX $nn` (R192, R121). -/
def execCpxZp (nn : Byte) (s : State) : Answer :=
  compareWith s.x (.mem (.zp nn)) s

/-- `CPX $hhll` (R192, R124). -/
def execCpxAbs (ww : Word) (s : State) : Answer :=
  compareWith s.x (.mem (.abs ww)) s

/-- `CPY #$nn` (R193, R120). -/
def execCpyImm (nn : Byte) (s : State) : Answer :=
  compareWith s.y (.imm nn) s

/-- `CPY $nn` (R193, R121). -/
def execCpyZp (nn : Byte) (s : State) : Answer :=
  compareWith s.y (.mem (.zp nn)) s

/-- `CPY $hhll` (R193, R124). -/
def execCpyAbs (ww : Word) (s : State) : Answer :=
  compareWith s.y (.mem (.abs ww)) s

/-- `BIT $nn` (R194, R121). -/
def execBitZp (nn : Byte) (s : State) : Answer :=
  bitTest (.mem (.zp nn)) s

/-- `BIT $hhll` (R194, R124). -/
def execBitAbs (ww : Word) (s : State) : Answer :=
  bitTest (.mem (.abs ww)) s

end Sys2Proof.Machine
end

