-- ==== Sys2Proof/Machine/LoadStore.lean ====
section
/-!
DEFINITION. Loads and stores (41_load_store.md R140–R145): one meaning per opcode over `load` and `store`.
-/
namespace Sys2Proof.Machine

/-- The load pattern of R140–R142: `v <- ReadOperand(mode); R <- v; SetZN(v)`. -/
def load (r : Reg) (src : Source) (s : State) : Answer :=
  Acc.finish ((readOperand src s).bind fun v s1 => .ok () (s1.putReg r v))

/-- The store pattern of R143–R145: `EA <- EffectiveAddress(mode); MemWrite(EA, 1, R)`; `EA` is never
read (R132). -/
def store (v : Byte) (m : Mode) (s : State) : Answer :=
  Acc.finish ((effectiveAddress m s).bind fun ea s1 => memWrite ea v s1)

/-- `LDA #$nn` (R140, R120). -/
def execLdaImm (nn : Byte) (s : State) : Answer :=
  load .a (.imm nn) s

/-- `LDA $nn` (R140, R121). -/
def execLdaZp (nn : Byte) (s : State) : Answer :=
  load .a (.mem (.zp nn)) s

/-- `LDA $nn,X` (R140, R122). -/
def execLdaZpx (nn : Byte) (s : State) : Answer :=
  load .a (.mem (.zpx nn)) s

/-- `LDA $hhll` (R140, R124). -/
def execLdaAbs (ww : Word) (s : State) : Answer :=
  load .a (.mem (.abs ww)) s

/-- `LDA $hhll,X` (R140, R125). -/
def execLdaAbsx (ww : Word) (s : State) : Answer :=
  load .a (.mem (.absx ww)) s

/-- `LDA $hhll,Y` (R140, R126). -/
def execLdaAbsy (ww : Word) (s : State) : Answer :=
  load .a (.mem (.absy ww)) s

/-- `LDA ($nn,X)` (R140, R128). -/
def execLdaIndx (nn : Byte) (s : State) : Answer :=
  load .a (.mem (.indx nn)) s

/-- `LDA ($nn),Y` (R140, R129). -/
def execLdaIndy (nn : Byte) (s : State) : Answer :=
  load .a (.mem (.indy nn)) s

/-- `LDX #$nn` (R141, R120). -/
def execLdxImm (nn : Byte) (s : State) : Answer :=
  load .x (.imm nn) s

/-- `LDX $nn` (R141, R121). -/
def execLdxZp (nn : Byte) (s : State) : Answer :=
  load .x (.mem (.zp nn)) s

/-- `LDX $nn,Y` (R141, R123). -/
def execLdxZpy (nn : Byte) (s : State) : Answer :=
  load .x (.mem (.zpy nn)) s

/-- `LDX $hhll` (R141, R124). -/
def execLdxAbs (ww : Word) (s : State) : Answer :=
  load .x (.mem (.abs ww)) s

/-- `LDX $hhll,Y` (R141, R126). -/
def execLdxAbsy (ww : Word) (s : State) : Answer :=
  load .x (.mem (.absy ww)) s

/-- `LDY #$nn` (R142, R120). -/
def execLdyImm (nn : Byte) (s : State) : Answer :=
  load .y (.imm nn) s

/-- `LDY $nn` (R142, R121). -/
def execLdyZp (nn : Byte) (s : State) : Answer :=
  load .y (.mem (.zp nn)) s

/-- `LDY $nn,X` (R142, R122). -/
def execLdyZpx (nn : Byte) (s : State) : Answer :=
  load .y (.mem (.zpx nn)) s

/-- `LDY $hhll` (R142, R124). -/
def execLdyAbs (ww : Word) (s : State) : Answer :=
  load .y (.mem (.abs ww)) s

/-- `LDY $hhll,X` (R142, R125). -/
def execLdyAbsx (ww : Word) (s : State) : Answer :=
  load .y (.mem (.absx ww)) s

/-- `STA $nn` (R143, R121). -/
def execStaZp (nn : Byte) (s : State) : Answer :=
  store s.a (.zp nn) s

/-- `STA $nn,X` (R143, R122). -/
def execStaZpx (nn : Byte) (s : State) : Answer :=
  store s.a (.zpx nn) s

/-- `STA $hhll` (R143, R124). -/
def execStaAbs (ww : Word) (s : State) : Answer :=
  store s.a (.abs ww) s

/-- `STA $hhll,X` (R143, R125). -/
def execStaAbsx (ww : Word) (s : State) : Answer :=
  store s.a (.absx ww) s

/-- `STA $hhll,Y` (R143, R126). -/
def execStaAbsy (ww : Word) (s : State) : Answer :=
  store s.a (.absy ww) s

/-- `STA ($nn,X)` (R143, R128). -/
def execStaIndx (nn : Byte) (s : State) : Answer :=
  store s.a (.indx nn) s

/-- `STA ($nn),Y` (R143, R129). -/
def execStaIndy (nn : Byte) (s : State) : Answer :=
  store s.a (.indy nn) s

/-- `STX $nn` (R144, R121). -/
def execStxZp (nn : Byte) (s : State) : Answer :=
  store s.x (.zp nn) s

/-- `STX $nn,Y` (R144, R123). -/
def execStxZpy (nn : Byte) (s : State) : Answer :=
  store s.x (.zpy nn) s

/-- `STX $hhll` (R144, R124). -/
def execStxAbs (ww : Word) (s : State) : Answer :=
  store s.x (.abs ww) s

/-- `STY $nn` (R145, R121). -/
def execStyZp (nn : Byte) (s : State) : Answer :=
  store s.y (.zp nn) s

/-- `STY $nn,X` (R145, R122). -/
def execStyZpx (nn : Byte) (s : State) : Answer :=
  store s.y (.zpx nn) s

/-- `STY $hhll` (R145, R124). -/
def execStyAbs (ww : Word) (s : State) : Answer :=
  store s.y (.abs ww) s

end Sys2Proof.Machine
end

