-- ==== Sys2Proof/Machine/Shift.lean ====
section
/-!
DEFINITION. Shifts and rotates (43_shift_rotate.md R180–R184): one meaning per opcode over the two
halves of `Modify` (R180). `shiftLeft` and `shiftRight` (Flags.lean) give the result and the bit
shifted out; a rotate hands them the old carry as the bit shifted in.
-/
namespace Sys2Proof.Machine

/-- `Modify(ACC, f)` (R180): `(r, c) <- f(A); A <- r; P.C <- c; SetZN(r)`. -/
def shiftAccumulator (f : Byte → Byte × Bool) (s : State) : Answer :=
  .next ((s.setA (f s.a).1).setShiftFlags (f s.a))

/-- `Modify(mode, f)` on a bus cell (R180): one read and one write of EA, then the flags. -/
def shiftMemory (f : Byte → Byte × Bool) (m : Mode) (s : State) : Answer :=
  Acc.finish ((modifyCell (fun v => (f v).1) m s).bind fun v s1 => .ok () (s1.setShiftFlags (f v)))

/-- `ASL A` (R181, R119). -/
def execAslAcc (s : State) : Answer :=
  shiftAccumulator (shiftLeft false) s

/-- `ASL $nn` (R181, R121). -/
def execAslZp (nn : Byte) (s : State) : Answer :=
  shiftMemory (shiftLeft false) (.zp nn) s

/-- `ASL $nn,X` (R181, R122). -/
def execAslZpx (nn : Byte) (s : State) : Answer :=
  shiftMemory (shiftLeft false) (.zpx nn) s

/-- `ASL $hhll` (R181, R124). -/
def execAslAbs (ww : Word) (s : State) : Answer :=
  shiftMemory (shiftLeft false) (.abs ww) s

/-- `ASL $hhll,X` (R181, R125). -/
def execAslAbsx (ww : Word) (s : State) : Answer :=
  shiftMemory (shiftLeft false) (.absx ww) s

/-- `LSR A` (R182, R119). -/
def execLsrAcc (s : State) : Answer :=
  shiftAccumulator (shiftRight false) s

/-- `LSR $nn` (R182, R121). -/
def execLsrZp (nn : Byte) (s : State) : Answer :=
  shiftMemory (shiftRight false) (.zp nn) s

/-- `LSR $nn,X` (R182, R122). -/
def execLsrZpx (nn : Byte) (s : State) : Answer :=
  shiftMemory (shiftRight false) (.zpx nn) s

/-- `LSR $hhll` (R182, R124). -/
def execLsrAbs (ww : Word) (s : State) : Answer :=
  shiftMemory (shiftRight false) (.abs ww) s

/-- `LSR $hhll,X` (R182, R125). -/
def execLsrAbsx (ww : Word) (s : State) : Answer :=
  shiftMemory (shiftRight false) (.absx ww) s

/-- `ROL A` (R183, R119). -/
def execRolAcc (s : State) : Answer :=
  shiftAccumulator (shiftLeft s.p.c) s

/-- `ROL $nn` (R183, R121). -/
def execRolZp (nn : Byte) (s : State) : Answer :=
  shiftMemory (shiftLeft s.p.c) (.zp nn) s

/-- `ROL $nn,X` (R183, R122). -/
def execRolZpx (nn : Byte) (s : State) : Answer :=
  shiftMemory (shiftLeft s.p.c) (.zpx nn) s

/-- `ROL $hhll` (R183, R124). -/
def execRolAbs (ww : Word) (s : State) : Answer :=
  shiftMemory (shiftLeft s.p.c) (.abs ww) s

/-- `ROL $hhll,X` (R183, R125). -/
def execRolAbsx (ww : Word) (s : State) : Answer :=
  shiftMemory (shiftLeft s.p.c) (.absx ww) s

/-- `ROR A` (R184, R119). -/
def execRorAcc (s : State) : Answer :=
  shiftAccumulator (shiftRight s.p.c) s

/-- `ROR $nn` (R184, R121). -/
def execRorZp (nn : Byte) (s : State) : Answer :=
  shiftMemory (shiftRight s.p.c) (.zp nn) s

/-- `ROR $nn,X` (R184, R122). -/
def execRorZpx (nn : Byte) (s : State) : Answer :=
  shiftMemory (shiftRight s.p.c) (.zpx nn) s

/-- `ROR $hhll` (R184, R124). -/
def execRorAbs (ww : Word) (s : State) : Answer :=
  shiftMemory (shiftRight s.p.c) (.abs ww) s

/-- `ROR $hhll,X` (R184, R125). -/
def execRorAbsx (ww : Word) (s : State) : Answer :=
  shiftMemory (shiftRight s.p.c) (.absx ww) s

end Sys2Proof.Machine
end

