-- ==== Sys2Proof/Machine/Stack.lean ====
section
/-!
DEFINITION. Stack, subroutines, break and return from interrupt (46_stack_subroutine.md R220–R230): one
meaning per opcode over `push`, `pull`, `pushWord`, `pullWord`, `pullStatus`, `takeBreak` and
`returnFromInterrupt` (Ops.lean).
-/
namespace Sys2Proof.Machine

/-- `PHA` (R223, R118). -/
def execPha (s : State) : Answer :=
  Acc.finish (push s.a s)

/-- `PHP` (R224, R118). -/
def execPhp (s : State) : Answer :=
  Acc.finish (push (s.p.toByte ||| 0x30#8) s)

/-- `PLA` (R225, R118). -/
def execPla (s : State) : Answer :=
  Acc.finish ((pull s).bind fun v s1 => .ok () (s1.putReg .a v))

/-- `PLP` (R226, R118). -/
def execPlp (s : State) : Answer :=
  Acc.finish (pullStatus s)

/-- `JSR $hhll` (R227, R124). -/
def execJsr (ww : Word) (s : State) : Answer :=
  Acc.finish ((pushWord (s.pc - 1#16) s).bind fun _ s1 => .ok () (s1.setPc ww))

/-- `RTS` (R228, R118). -/
def execRts (s : State) : Answer :=
  Acc.finish ((pullWord s).bind fun w s1 => .ok () (s1.setPc (w + 1#16)))

/-- `BRK` (R229, R118). -/
def execBrk (s : State) : Answer :=
  Acc.finish (takeBreak s)

/-- `RTI` (R230, R118). -/
def execRti (s : State) : Answer :=
  Acc.finish (returnFromInterrupt s)

end Sys2Proof.Machine
end

