-- ==== Sys2Proof/Machine/Transfer.lean ====
section
/-!
DEFINITION. Transfers, increments and decrements, flag instructions, NOP (47_transfer_incdec_flags.md
R240–R259).
-/
namespace Sys2Proof.Machine

/-- INC and DEC on memory (R250, R251): one read of EA, one write of `f v` to it, then Z and N. -/
def stepMemory (f : Byte → Byte) (m : Mode) (s : State) : Answer :=
  Acc.finish ((modifyCell f m s).bind fun v s1 => .ok () (s1.setP (s1.p.setZN (f v))))

/-- `TAX` (R240, R118). -/
def execTax (s : State) : Answer :=
  .next (s.putReg .x s.a)

/-- `TAY` (R241, R118). -/
def execTay (s : State) : Answer :=
  .next (s.putReg .y s.a)

/-- `TXA` (R242, R118). -/
def execTxa (s : State) : Answer :=
  .next (s.putReg .a s.x)

/-- `TYA` (R243, R118). -/
def execTya (s : State) : Answer :=
  .next (s.putReg .a s.y)

/-- `TSX` (R244, R118). -/
def execTsx (s : State) : Answer :=
  .next (s.putReg .x s.sp)

/-- `TXS` (R245, R118). -/
def execTxs (s : State) : Answer :=
  .next (s.setSp s.x)

/-- `INX` (R246, R118). -/
def execInx (s : State) : Answer :=
  .next (s.putReg .x (s.x + 1#8))

/-- `INY` (R247, R118). -/
def execIny (s : State) : Answer :=
  .next (s.putReg .y (s.y + 1#8))

/-- `DEX` (R248, R118). -/
def execDex (s : State) : Answer :=
  .next (s.putReg .x (s.x - 1#8))

/-- `DEY` (R249, R118). -/
def execDey (s : State) : Answer :=
  .next (s.putReg .y (s.y - 1#8))

/-- `INC $nn` (R250, R121). -/
def execIncZp (nn : Byte) (s : State) : Answer :=
  stepMemory (fun v => v + 1#8) (.zp nn) s

/-- `INC $nn,X` (R250, R122). -/
def execIncZpx (nn : Byte) (s : State) : Answer :=
  stepMemory (fun v => v + 1#8) (.zpx nn) s

/-- `INC $hhll` (R250, R124). -/
def execIncAbs (ww : Word) (s : State) : Answer :=
  stepMemory (fun v => v + 1#8) (.abs ww) s

/-- `INC $hhll,X` (R250, R125). -/
def execIncAbsx (ww : Word) (s : State) : Answer :=
  stepMemory (fun v => v + 1#8) (.absx ww) s

/-- `DEC $nn` (R251, R121). -/
def execDecZp (nn : Byte) (s : State) : Answer :=
  stepMemory (fun v => v - 1#8) (.zp nn) s

/-- `DEC $nn,X` (R251, R122). -/
def execDecZpx (nn : Byte) (s : State) : Answer :=
  stepMemory (fun v => v - 1#8) (.zpx nn) s

/-- `DEC $hhll` (R251, R124). -/
def execDecAbs (ww : Word) (s : State) : Answer :=
  stepMemory (fun v => v - 1#8) (.abs ww) s

/-- `DEC $hhll,X` (R251, R125). -/
def execDecAbsx (ww : Word) (s : State) : Answer :=
  stepMemory (fun v => v - 1#8) (.absx ww) s

/-- `CLC` (R252, R118). -/
def execClc (s : State) : Answer :=
  .next (s.setP (s.p.setC false))

/-- `SEC` (R253, R118). -/
def execSec (s : State) : Answer :=
  .next (s.setP (s.p.setC true))

/-- `CLI` (R254, R118). -/
def execCli (s : State) : Answer :=
  .next (s.setP (s.p.setI false))

/-- `SEI` (R255, R118). -/
def execSei (s : State) : Answer :=
  .next (s.setP (s.p.setI true))

/-- `CLV` (R256, R118). -/
def execClv (s : State) : Answer :=
  .next (s.setP (s.p.setV false))

/-- `CLD` (R257, R118). -/
def execCld (s : State) : Answer :=
  .next (s.setP (s.p.setD false))

/-- `SED` (R258, R118). -/
def execSed (s : State) : Answer :=
  .next (s.setP (s.p.setD true))

/-- `NOP` (R259, R118). -/
def execNop (s : State) : Answer :=
  .next s

end Sys2Proof.Machine
end

