-- ==== Sys2Proof/Machine/Dispatch.lean ====
section
/-!
DEFINITION. The dispatcher (40_fetch_decode_addressing.md R112, R113): one arm per constructor of Instr,
each one direct call of that instruction's meaning. The state handed in has its PC past the
instruction, whose bytes the step has fetched (log 15).
-/
namespace Sys2Proof.Machine

def exec (i : Instr) (s : State) : Host.Outcome State Fault Refusal :=
  match i with
  -- load and store (41_load_store.md)
  | .ldaImm nn => Sys2Proof.Machine.execLdaImm nn s
  | .ldaZp nn => Sys2Proof.Machine.execLdaZp nn s
  | .ldaZpx nn => Sys2Proof.Machine.execLdaZpx nn s
  | .ldaAbs ww => Sys2Proof.Machine.execLdaAbs ww s
  | .ldaAbsx ww => Sys2Proof.Machine.execLdaAbsx ww s
  | .ldaAbsy ww => Sys2Proof.Machine.execLdaAbsy ww s
  | .ldaIndx nn => Sys2Proof.Machine.execLdaIndx nn s
  | .ldaIndy nn => Sys2Proof.Machine.execLdaIndy nn s
  | .ldxImm nn => Sys2Proof.Machine.execLdxImm nn s
  | .ldxZp nn => Sys2Proof.Machine.execLdxZp nn s
  | .ldxZpy nn => Sys2Proof.Machine.execLdxZpy nn s
  | .ldxAbs ww => Sys2Proof.Machine.execLdxAbs ww s
  | .ldxAbsy ww => Sys2Proof.Machine.execLdxAbsy ww s
  | .ldyImm nn => Sys2Proof.Machine.execLdyImm nn s
  | .ldyZp nn => Sys2Proof.Machine.execLdyZp nn s
  | .ldyZpx nn => Sys2Proof.Machine.execLdyZpx nn s
  | .ldyAbs ww => Sys2Proof.Machine.execLdyAbs ww s
  | .ldyAbsx ww => Sys2Proof.Machine.execLdyAbsx ww s
  | .staZp nn => Sys2Proof.Machine.execStaZp nn s
  | .staZpx nn => Sys2Proof.Machine.execStaZpx nn s
  | .staAbs ww => Sys2Proof.Machine.execStaAbs ww s
  | .staAbsx ww => Sys2Proof.Machine.execStaAbsx ww s
  | .staAbsy ww => Sys2Proof.Machine.execStaAbsy ww s
  | .staIndx nn => Sys2Proof.Machine.execStaIndx nn s
  | .staIndy nn => Sys2Proof.Machine.execStaIndy nn s
  | .stxZp nn => Sys2Proof.Machine.execStxZp nn s
  | .stxZpy nn => Sys2Proof.Machine.execStxZpy nn s
  | .stxAbs ww => Sys2Proof.Machine.execStxAbs ww s
  | .styZp nn => Sys2Proof.Machine.execStyZp nn s
  | .styZpx nn => Sys2Proof.Machine.execStyZpx nn s
  | .styAbs ww => Sys2Proof.Machine.execStyAbs ww s
  -- arithmetic and logic (42_arithmetic_logic.md)
  | .adcImm nn => Sys2Proof.Machine.execAdcImm nn s
  | .adcZp nn => Sys2Proof.Machine.execAdcZp nn s
  | .adcZpx nn => Sys2Proof.Machine.execAdcZpx nn s
  | .adcAbs ww => Sys2Proof.Machine.execAdcAbs ww s
  | .adcAbsx ww => Sys2Proof.Machine.execAdcAbsx ww s
  | .adcAbsy ww => Sys2Proof.Machine.execAdcAbsy ww s
  | .adcIndx nn => Sys2Proof.Machine.execAdcIndx nn s
  | .adcIndy nn => Sys2Proof.Machine.execAdcIndy nn s
  | .sbcImm nn => Sys2Proof.Machine.execSbcImm nn s
  | .sbcZp nn => Sys2Proof.Machine.execSbcZp nn s
  | .sbcZpx nn => Sys2Proof.Machine.execSbcZpx nn s
  | .sbcAbs ww => Sys2Proof.Machine.execSbcAbs ww s
  | .sbcAbsx ww => Sys2Proof.Machine.execSbcAbsx ww s
  | .sbcAbsy ww => Sys2Proof.Machine.execSbcAbsy ww s
  | .sbcIndx nn => Sys2Proof.Machine.execSbcIndx nn s
  | .sbcIndy nn => Sys2Proof.Machine.execSbcIndy nn s
  | .andImm nn => Sys2Proof.Machine.execAndImm nn s
  | .andZp nn => Sys2Proof.Machine.execAndZp nn s
  | .andZpx nn => Sys2Proof.Machine.execAndZpx nn s
  | .andAbs ww => Sys2Proof.Machine.execAndAbs ww s
  | .andAbsx ww => Sys2Proof.Machine.execAndAbsx ww s
  | .andAbsy ww => Sys2Proof.Machine.execAndAbsy ww s
  | .andIndx nn => Sys2Proof.Machine.execAndIndx nn s
  | .andIndy nn => Sys2Proof.Machine.execAndIndy nn s
  | .oraImm nn => Sys2Proof.Machine.execOraImm nn s
  | .oraZp nn => Sys2Proof.Machine.execOraZp nn s
  | .oraZpx nn => Sys2Proof.Machine.execOraZpx nn s
  | .oraAbs ww => Sys2Proof.Machine.execOraAbs ww s
  | .oraAbsx ww => Sys2Proof.Machine.execOraAbsx ww s
  | .oraAbsy ww => Sys2Proof.Machine.execOraAbsy ww s
  | .oraIndx nn => Sys2Proof.Machine.execOraIndx nn s
  | .oraIndy nn => Sys2Proof.Machine.execOraIndy nn s
  | .eorImm nn => Sys2Proof.Machine.execEorImm nn s
  | .eorZp nn => Sys2Proof.Machine.execEorZp nn s
  | .eorZpx nn => Sys2Proof.Machine.execEorZpx nn s
  | .eorAbs ww => Sys2Proof.Machine.execEorAbs ww s
  | .eorAbsx ww => Sys2Proof.Machine.execEorAbsx ww s
  | .eorAbsy ww => Sys2Proof.Machine.execEorAbsy ww s
  | .eorIndx nn => Sys2Proof.Machine.execEorIndx nn s
  | .eorIndy nn => Sys2Proof.Machine.execEorIndy nn s
  -- shifts and rotates (43_shift_rotate.md)
  | .aslAcc => Sys2Proof.Machine.execAslAcc s
  | .aslZp nn => Sys2Proof.Machine.execAslZp nn s
  | .aslZpx nn => Sys2Proof.Machine.execAslZpx nn s
  | .aslAbs ww => Sys2Proof.Machine.execAslAbs ww s
  | .aslAbsx ww => Sys2Proof.Machine.execAslAbsx ww s
  | .lsrAcc => Sys2Proof.Machine.execLsrAcc s
  | .lsrZp nn => Sys2Proof.Machine.execLsrZp nn s
  | .lsrZpx nn => Sys2Proof.Machine.execLsrZpx nn s
  | .lsrAbs ww => Sys2Proof.Machine.execLsrAbs ww s
  | .lsrAbsx ww => Sys2Proof.Machine.execLsrAbsx ww s
  | .rolAcc => Sys2Proof.Machine.execRolAcc s
  | .rolZp nn => Sys2Proof.Machine.execRolZp nn s
  | .rolZpx nn => Sys2Proof.Machine.execRolZpx nn s
  | .rolAbs ww => Sys2Proof.Machine.execRolAbs ww s
  | .rolAbsx ww => Sys2Proof.Machine.execRolAbsx ww s
  | .rorAcc => Sys2Proof.Machine.execRorAcc s
  | .rorZp nn => Sys2Proof.Machine.execRorZp nn s
  | .rorZpx nn => Sys2Proof.Machine.execRorZpx nn s
  | .rorAbs ww => Sys2Proof.Machine.execRorAbs ww s
  | .rorAbsx ww => Sys2Proof.Machine.execRorAbsx ww s
  -- compare and bit test (44_compare_bit.md)
  | .cmpImm nn => Sys2Proof.Machine.execCmpImm nn s
  | .cmpZp nn => Sys2Proof.Machine.execCmpZp nn s
  | .cmpZpx nn => Sys2Proof.Machine.execCmpZpx nn s
  | .cmpAbs ww => Sys2Proof.Machine.execCmpAbs ww s
  | .cmpAbsx ww => Sys2Proof.Machine.execCmpAbsx ww s
  | .cmpAbsy ww => Sys2Proof.Machine.execCmpAbsy ww s
  | .cmpIndx nn => Sys2Proof.Machine.execCmpIndx nn s
  | .cmpIndy nn => Sys2Proof.Machine.execCmpIndy nn s
  | .cpxImm nn => Sys2Proof.Machine.execCpxImm nn s
  | .cpxZp nn => Sys2Proof.Machine.execCpxZp nn s
  | .cpxAbs ww => Sys2Proof.Machine.execCpxAbs ww s
  | .cpyImm nn => Sys2Proof.Machine.execCpyImm nn s
  | .cpyZp nn => Sys2Proof.Machine.execCpyZp nn s
  | .cpyAbs ww => Sys2Proof.Machine.execCpyAbs ww s
  | .bitZp nn => Sys2Proof.Machine.execBitZp nn s
  | .bitAbs ww => Sys2Proof.Machine.execBitAbs ww s
  -- branches and jumps (45_branch_jump.md)
  | .bcc rr => Sys2Proof.Machine.execBcc rr s
  | .bcs rr => Sys2Proof.Machine.execBcs rr s
  | .beq rr => Sys2Proof.Machine.execBeq rr s
  | .bne rr => Sys2Proof.Machine.execBne rr s
  | .bmi rr => Sys2Proof.Machine.execBmi rr s
  | .bpl rr => Sys2Proof.Machine.execBpl rr s
  | .bvc rr => Sys2Proof.Machine.execBvc rr s
  | .bvs rr => Sys2Proof.Machine.execBvs rr s
  | .jmpAbs ww => Sys2Proof.Machine.execJmpAbs ww s
  | .jmpInd ww => Sys2Proof.Machine.execJmpInd ww s
  -- stack, subroutines, break, return (46_stack_subroutine.md)
  | .pha => Sys2Proof.Machine.execPha s
  | .php => Sys2Proof.Machine.execPhp s
  | .pla => Sys2Proof.Machine.execPla s
  | .plp => Sys2Proof.Machine.execPlp s
  | .jsr ww => Sys2Proof.Machine.execJsr ww s
  | .rts => Sys2Proof.Machine.execRts s
  | .brk => Sys2Proof.Machine.execBrk s
  | .rti => Sys2Proof.Machine.execRti s
  -- transfers, increments, flags, NOP (47_transfer_incdec_flags.md)
  | .tax => Sys2Proof.Machine.execTax s
  | .tay => Sys2Proof.Machine.execTay s
  | .txa => Sys2Proof.Machine.execTxa s
  | .tya => Sys2Proof.Machine.execTya s
  | .tsx => Sys2Proof.Machine.execTsx s
  | .txs => Sys2Proof.Machine.execTxs s
  | .inx => Sys2Proof.Machine.execInx s
  | .iny => Sys2Proof.Machine.execIny s
  | .dex => Sys2Proof.Machine.execDex s
  | .dey => Sys2Proof.Machine.execDey s
  | .incZp nn => Sys2Proof.Machine.execIncZp nn s
  | .incZpx nn => Sys2Proof.Machine.execIncZpx nn s
  | .incAbs ww => Sys2Proof.Machine.execIncAbs ww s
  | .incAbsx ww => Sys2Proof.Machine.execIncAbsx ww s
  | .decZp nn => Sys2Proof.Machine.execDecZp nn s
  | .decZpx nn => Sys2Proof.Machine.execDecZpx nn s
  | .decAbs ww => Sys2Proof.Machine.execDecAbs ww s
  | .decAbsx ww => Sys2Proof.Machine.execDecAbsx ww s
  | .clc => Sys2Proof.Machine.execClc s
  | .sec => Sys2Proof.Machine.execSec s
  | .cli => Sys2Proof.Machine.execCli s
  | .sei => Sys2Proof.Machine.execSei s
  | .clv => Sys2Proof.Machine.execClv s
  | .cld => Sys2Proof.Machine.execCld s
  | .sed => Sys2Proof.Machine.execSed s
  | .nop => Sys2Proof.Machine.execNop s

end Sys2Proof.Machine
end

