-- ==== Sys2Proof/Machine/Fetch.lean ====
section
/-!
DEFINITION. Fetch and decode (40_fetch_decode_addressing.md R111–R115): the opcode byte, its row, then
the operand bytes its row asks for, PC moving past each byte as it is read. Also where a program's bytes
lie, for `State.withFetchWord`.
-/
namespace Sys2Proof.Machine

/-- `FetchByte()` (R114): the byte at PC; PC moves on only when the read has succeeded. -/
def fetchByte (s : State) : Acc Byte :=
  (memRead s.pc s).bind fun b s1 => .ok b (s1.setPc (s1.pc + 1#16))

/-- `FetchWord()` (R115): low byte first. -/
def fetchWord (s : State) : Acc Word :=
  (fetchByte s).bind fun lo s1 => (fetchByte s1).bind fun hi s2 => .ok (operandWord lo hi) s2

/-- The opcode bytes of ADC and SBC (R162, R163), whose step `DECIMAL_POLICY` may refuse. -/
def isDecimalOpcode (op : Byte) : Bool :=
  [0x69#8, 0x65#8, 0x75#8, 0x6D#8, 0x7D#8, 0x79#8, 0x61#8, 0x71#8,
   0xE9#8, 0xE5#8, 0xF5#8, 0xED#8, 0xFD#8, 0xF9#8, 0xE1#8, 0xF1#8].contains op

/-- Where fetch and decode lead: to an instruction, PC past it; to a state in which the step has ended
with a fault; or to a refusal. -/
inductive Fetched where
  | instr (i : Instr) (s : State)
  | stopped (s : State)
  | refused (r : Refusal)

/-- An operand fetch that raised ends the step; one that did not gives the instruction. -/
def Acc.toInstr {α : Type} (r : Acc α) (mk : α → Instr) : Fetched :=
  match r with
  | .ok v s => .instr (mk v) s
  | .stop s => .stopped s

/-- The operand fetches an opcode's row asks for (R114, R115, R118–R130). -/
def fetchOperands (sh : Shape) (s : State) : Fetched :=
  match sh with
  | .plain i => .instr i s
  | .byte mk => (fetchByte s).toInstr mk
  | .word mk => (fetchWord s).toInstr mk

/-- Dispatch on the opcode byte (R112): an unpopulated byte raises InvalidOpcode with PC at it; ADC and
SBC may be refused before any access of their own (R161; log 16). -/
def dispatchOpcode (op : Byte) (pc0 : Word) (s : State) : Fetched :=
  match opcodeShape op with
  | none => .stopped ((s.setPc pc0).takeFault (.invalidOpcode op pc0))
  | some sh =>
    if isDecimalOpcode op && decimalRefused s then .refused .decimalMode else fetchOperands sh s

/-- Fetch, dispatch and operand fetch of one step (R111–R115). A BusFault on the opcode fetch leaves PC
at pc0. -/
def fetchInstr (s : State) : Fetched :=
  match fetchByte s with
  | .stop s1 => .stopped s1
  | .ok op s1 => dispatchOpcode op s.pc s1

/-- A byte placed in the storage an address reaches; an address that reaches no storage is left alone. -/
def placeByte (s : State) (a : Word) (v : Byte) : State :=
  match s.target a with
  | some .ram => s.setMem (s.mem.write (s.canon a).toNat v)
  | some .io => s.setMem (s.mem.write (s.canon a).toNat v)
  | some (.external _) => s
  | none => s

/-- Bytes placed from an address on, addresses mod 65536 (R90). -/
def placeBytes (s : State) (a : Word) : List Byte → State
  | [] => s
  | v :: rest => placeBytes (placeByte s a v) (a + 1#16) rest

end Sys2Proof.Machine
end

