-- ==== Sys2Proof/Machine/Step.lean ====
section
/-!
DEFINITION. One step of the core (40_fetch_decode_addressing.md R110–R113): defined while the run state is
Running; fetch and decode, then the instruction's meaning.
-/
namespace Sys2Proof.Machine

/-- The step (R110–R113). -/
def step (s : State) : Host.Outcome State Fault Refusal :=
  match s.run with
  | .halted => .fault .stepAfterHalt
  | .faulted record => .fault (.stepAfterFault record)
  | .running =>
    match fetchInstr s with
    | .instr i s1 => exec i s1
    | .stopped s1 => .next s1
    | .refused r => .refused r

/-- `s` with an instruction's bytes where `step` fetches next: at PC and the two addresses after it
(log 13). `w` is numbered as the opcode table numbers its bits; bits at and above `nbits` are 0. -/
def State.withFetchWord (s : State) (nbits w : Nat) : State := placeBytes s s.pc (tableBytes nbits w)

end Sys2Proof.Machine
end

