-- ==== Sys2Proof/WellFormed.lean ====
section
/-!
DEFINITION. Well-formedness checks. An instruction needs none: R92 puts no condition on an operand
byte, and `Instr`'s operands are bit vectors of the exact width, so every term of `Instr` is an
instruction of the machine. What can be ill-formed is the bus configuration (20_memory.md R55–R57)
and the PRG image (R290); the checks below are the ones setup refuses by.
-/
namespace Sys2Proof

/-- R55: a range lies in the 64 KB space, `hi` at most 0x10000. -/
def Range.wf (r : Range) : Bool := decide (r.lo ≤ r.hi) && decide (r.hi ≤ 0x10000)

/-- R56: every mirror range has the length of the canonical range. -/
def Range.mirrorLengthsWf (canon : Range) (ms : List Range) : Bool :=
  ms.all fun m => decide (m.size = canon.size)

/-- No address of `m`'s canonical range is a mirror address of `n`. It looks at the two runs and not at
the map the table amounts to. DESIGN CHOICE (log 18): a redirection of `m` that a later call has replaced
still counts, and so does an empty `n` whose place lies inside `m`'s canonical range. Safe: it refuses
more. -/
def Mirror.clearOf (m n : Mirror) : Bool :=
  decide (m.len * m.count = 0) || decide (m.canon + m.len ≤ n.lo) || decide (n.hi ≤ m.canon)

/-- R57: no canonical address of the table is itself a mirror address, nor was one by a redirection since
replaced (log 18). -/
def Mirror.tableWf (ms : List Mirror) : Bool :=
  ms.all fun m => ms.all fun n => m.clearOf n

/-- R290, third precondition: the image has 16384 or 32768 bytes. -/
def Config.imageWf (image : List Byte) : Bool :=
  decide (image.length = 16384) || decide (image.length = 32768)

/-- The mirror table's ranges lie in the 64 KB space, the canonical ones and the mirror ones. -/
def Mirror.inSpace (m : Mirror) : Bool :=
  decide (m.hi ≤ 0x10000) && decide (m.canon + m.len ≤ 0x10000)

end Sys2Proof
end

