-- ==== Sys2Proof/Machine/Setup.lean ====
section
/-!
DEFINITION. The host's side of a launch: `attach` and `mirror` (20_memory.md R55–R57) and the setup
sequence (70_reset_and_hazards.md R290–R298), which is this core's reset. No instruction and no step
calls anything of this file.
-/
namespace Sys2Proof.Machine

/-- `attach(range, target)` (R55): the later call replaces the earlier owner. -/
def attachOne (t : Attachment) (table : List Attachment) : Except Refusal (List Attachment) :=
  if t.range.wf then .ok (t :: table) else .error .attachRange

/-- The platform's calls of `attach`, in order (R55). -/
def attachAll : List Attachment → List Attachment → Except Refusal (List Attachment)
  | [], table => .ok table
  | t :: rest, table =>
    match attachOne t table with
    | .error r => .error r
    | .ok table' => attachAll rest table'

/-- The redirections of one mirror range recorded (R56). A range that goes on where the newest run of the
same canonical range ends makes that run longer; any other range is a run of its own (log 10). -/
def recordMirror (canon m : Range) : List Mirror → List Mirror
  | [] => [{ lo := m.lo, canon := canon.lo, len := canon.size, count := 1 }]
  | e :: rest =>
    if e.canon = canon.lo ∧ e.len = canon.size ∧ e.hi = m.lo then
      { e with count := e.count + 1 } :: rest
    else { lo := m.lo, canon := canon.lo, len := canon.size, count := 1 } :: e :: rest

/-- The redirections of a list of mirror ranges recorded, in order (R56). -/
def recordMirrors (canon : Range) : List Range → List Mirror → List Mirror
  | [], table => table
  | m :: rest, table => recordMirrors canon rest (recordMirror canon m table)

/-- `mirror(canonical_range, mirror_ranges)` (R56, R57): refused for unequal lengths, for ranges beyond
the space, and when a canonical address of the table would be a mirror address, counting replaced
redirections and empty ranges (log 18). -/
def mirrorRanges (canon : Range) (ms : List Range) (table : List Mirror) :
    Except Refusal (List Mirror) :=
  if !canon.wf || !(ms.all Range.wf) then .error .mirrorRange
  else if !canon.mirrorLengthsWf ms then .error .mirrorLength
  else if !Mirror.tableWf (recordMirrors canon ms table) then .error .mirrorChain
  else .ok (recordMirrors canon ms table)

/-- The RAM mirror ranges of R64, R291. -/
def ramMirrorRanges : List Range :=
  [{ lo := 0x0800, hi := 0x1000 }, { lo := 0x1000, hi := 0x1800 }, { lo := 0x1800, hi := 0x2000 }]

/-- The I/O mirror ranges of R65, R293: `[0x2000 + 8k, 0x2008 + 8k)` for k = 1 .. 1023. -/
def ioMirrorRanges : List Range :=
  (List.range 1023).map fun k => { lo := 0x2000 + 8 * (k + 1), hi := 0x2008 + 8 * (k + 1) }

/-- `write_block` (R62): the bytes in order from an address on. -/
def writeBlock (a : Nat) : List Byte → State → Acc Unit
  | [], s => .ok () s
  | v :: rest, s => (memWrite (BitVec.ofNat 16 a) v s).bind fun _ s1 => writeBlock (a + 1) rest s1

/-- `for a = from .. from + n - 1: MemWrite(a, 1, 0x00)` (R295). -/
def zeroBlock (a : Nat) : Nat → State → Acc Unit
  | 0, s => .ok () s
  | n + 1, s => (memWrite (BitVec.ofNat 16 a) 0x00#8 s).bind fun _ s1 => zeroBlock (a + 1) n s1

/-- Setup step 4, first half (R294). -/
def setRegisters (s : State) : State :=
  { s with p := Status.reset, a := 0x00#8, x := 0x00#8, y := 0x00#8, sp := 0xFD#8 }

/-- Setup step 5 (R296, R297): PC from the reset vector, and the run state Running. -/
def loadVector (s : State) : Acc Unit :=
  (read16 0xFFFC#16 s).bind fun w s1 => .ok () ((s1.setPc w).setRun .running)

/-- A `mirror` call of setup: refused, or the state with the table it leaves. -/
def withMirrors (canon : Range) (ms : List Range) (s : State) (k : State → Answer) : Answer :=
  match mirrorRanges canon ms s.mirrors with
  | .error r => .refused r
  | .ok table => k (s.setMirrors table)

/-- An access of setup that faults ends it in the state reached (R298). -/
def afterAccess (r : Acc Unit) (k : State → Answer) : Answer :=
  match r with
  | .stop s => .next s
  | .ok _ s => k s

/-- Setup step 2's mirror (R292): only a 16 KB image has one. -/
def prgMirror (image : List Byte) (s : State) (k : State → Answer) : Answer :=
  if image.length = 16384 then
    withMirrors { lo := 0x8000, hi := 0xC000 } [{ lo := 0xC000, hi := 0x10000 }] s k
  else k s

/-- Setup steps 1 to 5 in order (R291–R297). -/
def setupSteps (image : List Byte) (s : State) : Answer :=
  withMirrors { lo := 0x0000, hi := 0x0800 } ramMirrorRanges s fun s1 =>
  afterAccess (writeBlock 0x8000 image s1) fun s2 =>
  prgMirror image s2 fun s3 =>
  withMirrors { lo := 0x2000, hi := 0x2008 } ioMirrorRanges s3 fun s4 =>
  afterAccess (zeroBlock 0x0000 0x0800 (setRegisters s4)) fun s5 =>
  Acc.finish (loadVector s5)

/-- R290, second precondition: no I/O register block has an entry. -/
def ioBlocksEmpty (s : State) : Bool :=
  s.mem.all fun c => decide (owner s.attach (BitVec.ofNat 16 c.1) ≠ some .io)

/-- `setup(bus, prg)` (R290–R298) on a state that holds the bus: its attachment table, its storage before
setup, and registers of no account (R35; log 12). The answer's next state is the launch state, or is
Faulted when an access of setup raised. -/
def setup (image : List Byte) (s : State) : Answer :=
  if !s.mirrors.isEmpty then .refused .usedBus
  else if !ioBlocksEmpty s then .refused .ioNotEmpty
  else if !Config.imageWf image then .refused .imageLength
  else setupSteps image s

/-- A freshly built bus before setup (R282, R290): the platform's targets attached, no mirror, the
storage the RAM blocks happen to hold, nothing forwarded to a peripheral. The registers have no value
yet (R35); the ones of `regs` stand in until setup writes them. -/
def freshBus (params : Params) (targets : List Attachment) (initial : Memory) (regs : State) :
    Except Refusal State :=
  match attachAll targets [] with
  | .error r => .error r
  | .ok table =>
    .ok { regs with attach := table, mirrors := [], mem := initial, params := params, ext := [] }

/-- A launch (R282, R299, R304): the platform attaches its targets, then the host calls setup. -/
def launch (params : Params) (targets : List Attachment) (initial : Memory) (image : List Byte)
    (regs : State) : Answer :=
  match freshBus params targets initial regs with
  | .error r => .refused r
  | .ok s => setup image s

end Sys2Proof.Machine
end

