-- ==== Sys2Proof/Safety.lean ====
section
/-!
DEFINITION. The terms claims use: what a read and a write of the bus do, said without the access
machinery (20_memory.md R58–R61); the address of each addressing mode as the arithmetic of R117–R129;
what a run is (70_reset_and_hazards.md R303, R304); which register and flag each mnemonic writes
(10_state.md R21, R26); what an instruction stores to; and the invariant of the machine.
-/
namespace Sys2Proof.Machine

/-! ### Accesses -/

/-- An access to `a` reaches a target (R59, R60). -/
abbrev State.Attached (s : State) (a : Word) : Prop := (s.target a).isSome = true

/-- The byte of storage behind `a`, through the mirrors (R52, R53, R58). -/
def State.cell (s : State) (a : Word) : Byte := s.mem.read (s.canon a).toNat

/-- The byte a read of `a` returns: the storage's, or an external target's answer (R52–R54). -/
def State.byteAt (s : State) (a : Word) : Byte :=
  match s.target a with
  | some (.external id) => Config.externalRead id (s.canon a) s.ext
  | some .ram => s.cell a
  | some .io => s.cell a
  | none => s.cell a

/-- The state a read of `a` leaves: only an external target notices (R72). -/
def State.afterRead (s : State) (a : Word) : State :=
  match s.target a with
  | some (.external id) =>
    { s with ext := { target := id, addr := s.canon a, dir := .read, value := s.byteAt a } :: s.ext }
  | some .ram => s
  | some .io => s
  | none => s

/-- The state a write of `v` to `a` leaves (R60). -/
def State.afterWrite (s : State) (a : Word) (v : Byte) : State :=
  match s.target a with
  | some (.external id) =>
    { s with ext := { target := id, addr := s.canon a, dir := .write, value := v } :: s.ext }
  | some .ram => { s with mem := s.mem.write (s.canon a).toNat v }
  | some .io => { s with mem := s.mem.write (s.canon a).toNat v }
  | none => s

/-- Where `read16(a)` finds its high byte (R61). -/
def State.highAddr (s : State) (a : Word) : Word :=
  if s.params.read16PageWrap then BitVec.ofNat 16 (a.toNat / 256 * 256 + (a.toNat + 1) % 256)
  else BitVec.ofNat 16 (a.toNat + 1)

/-- Both bytes of `read16(a)` are attached. -/
abbrev State.WordAttached (s : State) (a : Word) : Prop :=
  s.Attached a ∧ s.Attached (s.highAddr a)

/-- The value of `read16(a)` (R61): the low byte is read first. -/
def State.wordAt (s : State) (a : Word) : Word :=
  BitVec.ofNat 16 (((s.afterRead a).byteAt (s.highAddr a)).toNat * 256 + (s.byteAt a).toNat)

/-- The state `read16(a)` leaves. -/
def State.afterReadWord (s : State) (a : Word) : State := (s.afterRead a).afterRead (s.highAddr a)

/-- The state with a BusFault of an access to `a` taken, nothing else changed: the record holds the
address as issued (R271). -/
def busFaulted (s : State) (a : Word) (d : Dir) : State :=
  { s with run := .faulted (.busFault a d) }

/-- The state `read16(a)` stops in when one of its bytes is unattached (R61, R133): a low byte that
cannot be read comes first, and a high byte only once the low one has been read. -/
def State.wordFault (s : State) (a : Word) : State :=
  if s.Attached a then busFaulted (s.afterRead a) (s.highAddr a) .read else busFaulted s a .read

/-- The address of zero-page indexing (R117), as arithmetic. -/
def State.zeroPage (s : State) (nn r : Byte) : Word :=
  if s.params.zpIndexWrap then BitVec.ofNat 16 ((nn.toNat + r.toNat) % 256)
  else BitVec.ofNat 16 (nn.toNat + r.toNat)

/-- A byte as an address of the zero page (R92). -/
def zeroPageOf (nn : Byte) : Word := BitVec.ofNat 16 nn.toNat

/-! ### Operands -/

/-- The pointer an indirect mode reads, if the mode reads one (R127–R129). -/
def Mode.pointer (m : Mode) (s : State) : Option Word :=
  match m with
  | .zp _ => none
  | .zpx _ => none
  | .zpy _ => none
  | .abs _ => none
  | .absx _ => none
  | .absy _ => none
  | .ind ww => some ww
  | .indx nn => some (s.zeroPage nn s.x)
  | .indy nn => some (zeroPageOf nn)

/-- The pointer bytes of the mode, if it has any, are attached. -/
def Mode.PointerAttached (m : Mode) (s : State) : Prop :=
  ∀ p ∈ m.pointer s, s.WordAttached p

/-- The state the mode's pointer reads leave. -/
def Mode.after (m : Mode) (s : State) : State :=
  match m.pointer s with
  | none => s
  | some p => s.afterReadWord p

/-- The effective address (R121–R129), as arithmetic mod 65536. -/
def Mode.addr (m : Mode) (s : State) : Word :=
  match m with
  | .zp nn => zeroPageOf nn
  | .zpx nn => s.zeroPage nn s.x
  | .zpy nn => s.zeroPage nn s.y
  | .abs ww => ww
  | .absx ww => BitVec.ofNat 16 (ww.toNat + s.x.toNat)
  | .absy ww => BitVec.ofNat 16 (ww.toNat + s.y.toNat)
  | .ind ww => s.wordAt ww
  | .indx nn => s.wordAt (s.zeroPage nn s.x)
  | .indy nn => BitVec.ofNat 16 ((s.wordAt (zeroPageOf nn)).toNat + s.y.toNat)

/-- Everything the mode's data access needs is attached. -/
def Mode.Reachable (m : Mode) (s : State) : Prop := m.PointerAttached s ∧ s.Attached (m.addr s)

/-- The state a read through the mode stops in when it is not reachable: the first read that fails, of
the pointer's low byte, its high byte and the cell in that order, is recorded, and the reads before
it stand (R133, R276). -/
def Mode.readFault (m : Mode) (s : State) : State :=
  match m.pointer s with
  | none => busFaulted s (m.addr s) .read
  | some p =>
    if s.WordAttached p then busFaulted (s.afterReadWord p) (m.addr s) .read else s.wordFault p

/-- Everything reading the operand needs is attached. -/
def Source.Reachable (src : Source) (s : State) : Prop :=
  match src with
  | .imm _ => True
  | .mem m => m.Reachable s

/-- The operand's value (R131). -/
def Source.value (src : Source) (s : State) : Byte :=
  match src with
  | .imm nn => nn
  | .mem m => (m.after s).byteAt (m.addr s)

/-- The state reading the operand leaves. -/
def Source.after (src : Source) (s : State) : State :=
  match src with
  | .imm _ => s
  | .mem m => (m.after s).afterRead (m.addr s)

/-- The state reading the operand stops in when it is not reachable; an immediate always is. -/
def Source.readFault (src : Source) (s : State) : State :=
  match src with
  | .imm _ => s
  | .mem m => m.readFault s

/-- The two operand bytes of a 16-bit operand, low byte first (R91). -/
def wordBytes (ww : Word) : List Byte :=
  [BitVec.ofNat 8 (ww.toNat % 256), BitVec.ofNat 8 (ww.toNat / 256)]

/-- The operand bytes of a mode (R91). -/
def Mode.bytes (m : Mode) : List Byte :=
  match m with
  | .zp nn => [nn]
  | .zpx nn => [nn]
  | .zpy nn => [nn]
  | .abs ww => wordBytes ww
  | .absx ww => wordBytes ww
  | .absy ww => wordBytes ww
  | .ind ww => wordBytes ww
  | .indx nn => [nn]
  | .indy nn => [nn]

/-- The operand bytes of a data operand (R91). -/
def Source.bytes (src : Source) : List Byte :=
  match src with
  | .imm nn => [nn]
  | .mem m => m.bytes

/-! ### The stack -/

/-- The address a push writes and SP then leaves (R220). -/
def State.stackSlot (s : State) : Word := BitVec.ofNat 16 (0x0100 + s.sp.toNat)

/-- The state a push of `v` leaves (R220). -/
def State.pushed (s : State) (v : Byte) : State :=
  { s.afterWrite s.stackSlot v with sp := BitVec.ofNat 8 (s.sp.toNat + 255) }

/-- The state in which a pull makes its read: SP moved up by one (R221). -/
def State.spUp (s : State) : State := { s with sp := BitVec.ofNat 8 (s.sp.toNat + 1) }

/-- The byte a pull returns (R221). -/
def State.pullByte (s : State) : Byte := s.spUp.byteAt s.spUp.stackSlot

/-- The state a pull leaves (R221). -/
def State.pulled (s : State) : State := s.spUp.afterRead s.spUp.stackSlot

/-- A push has its slot attached. -/
abbrev State.PushAttached (s : State) : Prop := s.Attached s.stackSlot

/-- A pull has its slot attached. -/
abbrev State.PullAttached (s : State) : Prop := s.Attached s.spUp.stackSlot

/-! ### Fetch -/

/-- The bytes `bs` lie at PC in `s`, each attached, and `t` is the state once they are fetched (R111,
R114): PC past them. -/
def Fetches : List Byte → State → State → Prop
  | [], s, t => t = s
  | b :: rest, s, t =>
    s.Attached s.pc ∧ s.byteAt s.pc = b ∧
      Fetches rest { s.afterRead s.pc with pc := BitVec.ofNat 16 (s.pc.toNat + 1) } t

/-! ### Runs -/

/-- The launch premise (R303): the state a launch that raised nothing leaves. -/
def CleanLaunch (s : State) : Prop :=
  ∃ params targets initial image regs,
    launch params targets initial image regs = .next s ∧ s.run = .running

/-- A run has ended (R304): the first BRK has retired. A faulted state is never final. -/
abbrev State.Finished (s : State) : Prop := s.run = .halted

/-! ### What an instruction may change -/

/-- The registers of R21. -/
inductive Register where
  | a
  | x
  | y
  | sp
  deriving DecidableEq, Repr

/-- The value of a register. -/
def State.register (s : State) (r : Register) : Byte :=
  match r with
  | .a => s.a
  | .x => s.x
  | .y => s.y
  | .sp => s.sp

/-- The stored flags of R26. -/
inductive Flag where
  | c
  | z
  | n
  | v
  | i
  | d
  | b
  deriving DecidableEq, Repr

/-- The value of a flag. -/
def Status.flag (p : Status) (f : Flag) : Bool :=
  match f with
  | .c => p.c
  | .z => p.z
  | .n => p.n
  | .v => p.v
  | .i => p.i
  | .d => p.d
  | .b => p.b

/-- The 56 mnemonics (R2). -/
inductive Mnemonic where
  | lda | ldx | ldy | sta | stx | sty | adc | sbc | and | ora | eor | asl | lsr | rol | ror | cmp
  | cpx | cpy | bit | bcc | bcs | beq | bne | bmi | bpl | bvc | bvs | jmp | pha | php | pla | plp
  | jsr | rts | brk | rti | tax | tay | txa | tya | tsx | txs | inx | iny | dex | dey | inc | dec
  | clc | sec | cli | sei | clv | cld | sed | nop
  deriving DecidableEq, Repr

/-- The mnemonic of an instruction (R94). -/
def mnemonicOf (i : Instr) : Mnemonic :=
  match i with
  | .ldaImm _ => .lda
  | .ldaZp _ => .lda
  | .ldaZpx _ => .lda
  | .ldaAbs _ => .lda
  | .ldaAbsx _ => .lda
  | .ldaAbsy _ => .lda
  | .ldaIndx _ => .lda
  | .ldaIndy _ => .lda
  | .ldxImm _ => .ldx
  | .ldxZp _ => .ldx
  | .ldxZpy _ => .ldx
  | .ldxAbs _ => .ldx
  | .ldxAbsy _ => .ldx
  | .ldyImm _ => .ldy
  | .ldyZp _ => .ldy
  | .ldyZpx _ => .ldy
  | .ldyAbs _ => .ldy
  | .ldyAbsx _ => .ldy
  | .staZp _ => .sta
  | .staZpx _ => .sta
  | .staAbs _ => .sta
  | .staAbsx _ => .sta
  | .staAbsy _ => .sta
  | .staIndx _ => .sta
  | .staIndy _ => .sta
  | .stxZp _ => .stx
  | .stxZpy _ => .stx
  | .stxAbs _ => .stx
  | .styZp _ => .sty
  | .styZpx _ => .sty
  | .styAbs _ => .sty
  | .adcImm _ => .adc
  | .adcZp _ => .adc
  | .adcZpx _ => .adc
  | .adcAbs _ => .adc
  | .adcAbsx _ => .adc
  | .adcAbsy _ => .adc
  | .adcIndx _ => .adc
  | .adcIndy _ => .adc
  | .sbcImm _ => .sbc
  | .sbcZp _ => .sbc
  | .sbcZpx _ => .sbc
  | .sbcAbs _ => .sbc
  | .sbcAbsx _ => .sbc
  | .sbcAbsy _ => .sbc
  | .sbcIndx _ => .sbc
  | .sbcIndy _ => .sbc
  | .andImm _ => .and
  | .andZp _ => .and
  | .andZpx _ => .and
  | .andAbs _ => .and
  | .andAbsx _ => .and
  | .andAbsy _ => .and
  | .andIndx _ => .and
  | .andIndy _ => .and
  | .oraImm _ => .ora
  | .oraZp _ => .ora
  | .oraZpx _ => .ora
  | .oraAbs _ => .ora
  | .oraAbsx _ => .ora
  | .oraAbsy _ => .ora
  | .oraIndx _ => .ora
  | .oraIndy _ => .ora
  | .eorImm _ => .eor
  | .eorZp _ => .eor
  | .eorZpx _ => .eor
  | .eorAbs _ => .eor
  | .eorAbsx _ => .eor
  | .eorAbsy _ => .eor
  | .eorIndx _ => .eor
  | .eorIndy _ => .eor
  | .aslAcc => .asl
  | .aslZp _ => .asl
  | .aslZpx _ => .asl
  | .aslAbs _ => .asl
  | .aslAbsx _ => .asl
  | .lsrAcc => .lsr
  | .lsrZp _ => .lsr
  | .lsrZpx _ => .lsr
  | .lsrAbs _ => .lsr
  | .lsrAbsx _ => .lsr
  | .rolAcc => .rol
  | .rolZp _ => .rol
  | .rolZpx _ => .rol
  | .rolAbs _ => .rol
  | .rolAbsx _ => .rol
  | .rorAcc => .ror
  | .rorZp _ => .ror
  | .rorZpx _ => .ror
  | .rorAbs _ => .ror
  | .rorAbsx _ => .ror
  | .cmpImm _ => .cmp
  | .cmpZp _ => .cmp
  | .cmpZpx _ => .cmp
  | .cmpAbs _ => .cmp
  | .cmpAbsx _ => .cmp
  | .cmpAbsy _ => .cmp
  | .cmpIndx _ => .cmp
  | .cmpIndy _ => .cmp
  | .cpxImm _ => .cpx
  | .cpxZp _ => .cpx
  | .cpxAbs _ => .cpx
  | .cpyImm _ => .cpy
  | .cpyZp _ => .cpy
  | .cpyAbs _ => .cpy
  | .bitZp _ => .bit
  | .bitAbs _ => .bit
  | .bcc _ => .bcc
  | .bcs _ => .bcs
  | .beq _ => .beq
  | .bne _ => .bne
  | .bmi _ => .bmi
  | .bpl _ => .bpl
  | .bvc _ => .bvc
  | .bvs _ => .bvs
  | .jmpAbs _ => .jmp
  | .jmpInd _ => .jmp
  | .pha => .pha
  | .php => .php
  | .pla => .pla
  | .plp => .plp
  | .jsr _ => .jsr
  | .rts => .rts
  | .brk => .brk
  | .rti => .rti
  | .tax => .tax
  | .tay => .tay
  | .txa => .txa
  | .tya => .tya
  | .tsx => .tsx
  | .txs => .txs
  | .inx => .inx
  | .iny => .iny
  | .dex => .dex
  | .dey => .dey
  | .incZp _ => .inc
  | .incZpx _ => .inc
  | .incAbs _ => .inc
  | .incAbsx _ => .inc
  | .decZp _ => .dec
  | .decZpx _ => .dec
  | .decAbs _ => .dec
  | .decAbsx _ => .dec
  | .clc => .clc
  | .sec => .sec
  | .cli => .cli
  | .sei => .sei
  | .clv => .clv
  | .cld => .cld
  | .sed => .sed
  | .nop => .nop

/-- A shift or rotate of the accumulator (R119), the one form of its mnemonic that writes A. -/
def onAccumulator (i : Instr) : Bool :=
  decide (i = .aslAcc) || decide (i = .lsrAcc) || decide (i = .rolAcc) || decide (i = .rorAcc)

/-- The registers a mnemonic writes: the last column of R21, but for the shifts of the accumulator. -/
def Mnemonic.registersWritten (m : Mnemonic) : List Register :=
  match m with
  | .lda => [.a]
  | .ldx => [.x]
  | .ldy => [.y]
  | .sta => []
  | .stx => []
  | .sty => []
  | .adc => [.a]
  | .sbc => [.a]
  | .and => [.a]
  | .ora => [.a]
  | .eor => [.a]
  | .asl => []
  | .lsr => []
  | .rol => []
  | .ror => []
  | .cmp => []
  | .cpx => []
  | .cpy => []
  | .bit => []
  | .bcc => []
  | .bcs => []
  | .beq => []
  | .bne => []
  | .bmi => []
  | .bpl => []
  | .bvc => []
  | .bvs => []
  | .jmp => []
  | .pha => [.sp]
  | .php => [.sp]
  | .pla => [.a, .sp]
  | .plp => [.sp]
  | .jsr => [.sp]
  | .rts => [.sp]
  | .brk => [.sp]
  | .rti => [.sp]
  | .tax => [.x]
  | .tay => [.y]
  | .txa => [.a]
  | .tya => [.a]
  | .tsx => [.x]
  | .txs => [.sp]
  | .inx => [.x]
  | .iny => [.y]
  | .dex => [.x]
  | .dey => [.y]
  | .inc => []
  | .dec => []
  | .clc => []
  | .sec => []
  | .cli => []
  | .sei => []
  | .clv => []
  | .cld => []
  | .sed => []
  | .nop => []

/-- The registers an instruction writes (R21). -/
def registersWritten (i : Instr) : List Register :=
  if onAccumulator i then [.a] else (mnemonicOf i).registersWritten

/-- The flags a mnemonic writes: the second column of R26. -/
def Mnemonic.flagsWritten (m : Mnemonic) : List Flag :=
  match m with
  | .lda => [.z, .n]
  | .ldx => [.z, .n]
  | .ldy => [.z, .n]
  | .sta => []
  | .stx => []
  | .sty => []
  | .adc => [.c, .z, .n, .v]
  | .sbc => [.c, .z, .n, .v]
  | .and => [.z, .n]
  | .ora => [.z, .n]
  | .eor => [.z, .n]
  | .asl => [.c, .z, .n]
  | .lsr => [.c, .z, .n]
  | .rol => [.c, .z, .n]
  | .ror => [.c, .z, .n]
  | .cmp => [.c, .z, .n]
  | .cpx => [.c, .z, .n]
  | .cpy => [.c, .z, .n]
  | .bit => [.z, .n, .v]
  | .bcc => []
  | .bcs => []
  | .beq => []
  | .bne => []
  | .bmi => []
  | .bpl => []
  | .bvc => []
  | .bvs => []
  | .jmp => []
  | .pha => []
  | .php => []
  | .pla => [.z, .n]
  | .plp => [.c, .z, .n, .v, .i, .d]
  | .jsr => []
  | .rts => []
  | .brk => [.i]
  | .rti => [.c, .z, .n, .v, .i, .d]
  | .tax => [.z, .n]
  | .tay => [.z, .n]
  | .txa => [.z, .n]
  | .tya => [.z, .n]
  | .tsx => [.z, .n]
  | .txs => []
  | .inx => [.z, .n]
  | .iny => [.z, .n]
  | .dex => [.z, .n]
  | .dey => [.z, .n]
  | .inc => [.z, .n]
  | .dec => [.z, .n]
  | .clc => [.c]
  | .sec => [.c]
  | .cli => [.i]
  | .sei => [.i]
  | .clv => [.v]
  | .cld => [.d]
  | .sed => [.d]
  | .nop => []

/-- The mnemonics whose rule may overwrite PC after the fetch (R22, 45, 46). -/
def Mnemonic.mayJump (m : Mnemonic) : Bool :=
  [.bcc, .bcs, .beq, .bne, .bmi, .bpl, .bvc, .bvs, .jmp, .jsr, .rts, .rti].contains m

/-- The memory mode whose cell an instruction writes: the write class and the memory forms of the
read-modify-write class of R132. -/
def storeMode (i : Instr) : Option Mode :=
  match i with
  | .ldaImm _ => none
  | .ldaZp _ => none
  | .ldaZpx _ => none
  | .ldaAbs _ => none
  | .ldaAbsx _ => none
  | .ldaAbsy _ => none
  | .ldaIndx _ => none
  | .ldaIndy _ => none
  | .ldxImm _ => none
  | .ldxZp _ => none
  | .ldxZpy _ => none
  | .ldxAbs _ => none
  | .ldxAbsy _ => none
  | .ldyImm _ => none
  | .ldyZp _ => none
  | .ldyZpx _ => none
  | .ldyAbs _ => none
  | .ldyAbsx _ => none
  | .staZp nn => some (.zp nn)
  | .staZpx nn => some (.zpx nn)
  | .staAbs ww => some (.abs ww)
  | .staAbsx ww => some (.absx ww)
  | .staAbsy ww => some (.absy ww)
  | .staIndx nn => some (.indx nn)
  | .staIndy nn => some (.indy nn)
  | .stxZp nn => some (.zp nn)
  | .stxZpy nn => some (.zpy nn)
  | .stxAbs ww => some (.abs ww)
  | .styZp nn => some (.zp nn)
  | .styZpx nn => some (.zpx nn)
  | .styAbs ww => some (.abs ww)
  | .adcImm _ => none
  | .adcZp _ => none
  | .adcZpx _ => none
  | .adcAbs _ => none
  | .adcAbsx _ => none
  | .adcAbsy _ => none
  | .adcIndx _ => none
  | .adcIndy _ => none
  | .sbcImm _ => none
  | .sbcZp _ => none
  | .sbcZpx _ => none
  | .sbcAbs _ => none
  | .sbcAbsx _ => none
  | .sbcAbsy _ => none
  | .sbcIndx _ => none
  | .sbcIndy _ => none
  | .andImm _ => none
  | .andZp _ => none
  | .andZpx _ => none
  | .andAbs _ => none
  | .andAbsx _ => none
  | .andAbsy _ => none
  | .andIndx _ => none
  | .andIndy _ => none
  | .oraImm _ => none
  | .oraZp _ => none
  | .oraZpx _ => none
  | .oraAbs _ => none
  | .oraAbsx _ => none
  | .oraAbsy _ => none
  | .oraIndx _ => none
  | .oraIndy _ => none
  | .eorImm _ => none
  | .eorZp _ => none
  | .eorZpx _ => none
  | .eorAbs _ => none
  | .eorAbsx _ => none
  | .eorAbsy _ => none
  | .eorIndx _ => none
  | .eorIndy _ => none
  | .aslAcc => none
  | .aslZp nn => some (.zp nn)
  | .aslZpx nn => some (.zpx nn)
  | .aslAbs ww => some (.abs ww)
  | .aslAbsx ww => some (.absx ww)
  | .lsrAcc => none
  | .lsrZp nn => some (.zp nn)
  | .lsrZpx nn => some (.zpx nn)
  | .lsrAbs ww => some (.abs ww)
  | .lsrAbsx ww => some (.absx ww)
  | .rolAcc => none
  | .rolZp nn => some (.zp nn)
  | .rolZpx nn => some (.zpx nn)
  | .rolAbs ww => some (.abs ww)
  | .rolAbsx ww => some (.absx ww)
  | .rorAcc => none
  | .rorZp nn => some (.zp nn)
  | .rorZpx nn => some (.zpx nn)
  | .rorAbs ww => some (.abs ww)
  | .rorAbsx ww => some (.absx ww)
  | .cmpImm _ => none
  | .cmpZp _ => none
  | .cmpZpx _ => none
  | .cmpAbs _ => none
  | .cmpAbsx _ => none
  | .cmpAbsy _ => none
  | .cmpIndx _ => none
  | .cmpIndy _ => none
  | .cpxImm _ => none
  | .cpxZp _ => none
  | .cpxAbs _ => none
  | .cpyImm _ => none
  | .cpyZp _ => none
  | .cpyAbs _ => none
  | .bitZp _ => none
  | .bitAbs _ => none
  | .bcc _ => none
  | .bcs _ => none
  | .beq _ => none
  | .bne _ => none
  | .bmi _ => none
  | .bpl _ => none
  | .bvc _ => none
  | .bvs _ => none
  | .jmpAbs _ => none
  | .jmpInd _ => none
  | .pha => none
  | .php => none
  | .pla => none
  | .plp => none
  | .jsr _ => none
  | .rts => none
  | .brk => none
  | .rti => none
  | .tax => none
  | .tay => none
  | .txa => none
  | .tya => none
  | .tsx => none
  | .txs => none
  | .inx => none
  | .iny => none
  | .dex => none
  | .dey => none
  | .incZp nn => some (.zp nn)
  | .incZpx nn => some (.zpx nn)
  | .incAbs ww => some (.abs ww)
  | .incAbsx ww => some (.absx ww)
  | .decZp nn => some (.zp nn)
  | .decZpx nn => some (.zpx nn)
  | .decAbs ww => some (.abs ww)
  | .decAbsx ww => some (.absx ww)
  | .clc => none
  | .sec => none
  | .cli => none
  | .sei => none
  | .clv => none
  | .cld => none
  | .sed => none
  | .nop => none

/-- How many bytes a mnemonic pushes (R223, R224, R227, R229). -/
def Mnemonic.pushes (m : Mnemonic) : Nat :=
  match m with
  | .lda => 0
  | .ldx => 0
  | .ldy => 0
  | .sta => 0
  | .stx => 0
  | .sty => 0
  | .adc => 0
  | .sbc => 0
  | .and => 0
  | .ora => 0
  | .eor => 0
  | .asl => 0
  | .lsr => 0
  | .rol => 0
  | .ror => 0
  | .cmp => 0
  | .cpx => 0
  | .cpy => 0
  | .bit => 0
  | .bcc => 0
  | .bcs => 0
  | .beq => 0
  | .bne => 0
  | .bmi => 0
  | .bpl => 0
  | .bvc => 0
  | .bvs => 0
  | .jmp => 0
  | .pha => 1
  | .php => 1
  | .pla => 0
  | .plp => 0
  | .jsr => 2
  | .rts => 0
  | .brk => 1
  | .rti => 0
  | .tax => 0
  | .tay => 0
  | .txa => 0
  | .tya => 0
  | .tsx => 0
  | .txs => 0
  | .inx => 0
  | .iny => 0
  | .dex => 0
  | .dey => 0
  | .inc => 0
  | .dec => 0
  | .clc => 0
  | .sec => 0
  | .cli => 0
  | .sei => 0
  | .clv => 0
  | .cld => 0
  | .sed => 0
  | .nop => 0

/-- The addresses an instruction stores to, in order: the effective address its meaning computes, or the
stack slots it pushes to. -/
def storedAddrs (i : Instr) (s : State) : List Word :=
  match storeMode i with
  | some m =>
    match effectiveAddress m s with
    | .ok ea _ => [ea]
    | .stop _ => []
  | none => (List.range (mnemonicOf i).pushes).map fun k => stackAddr (s.sp - BitVec.ofNat 8 k)

/-! ### The invariant -/

/-- The bus configuration is one the spec allows: every range in the space (R55, R56), no canonical
address a mirror address (R57). -/
def State.BusWf (s : State) : Prop :=
  (∀ t ∈ s.attach, t.range.wf = true) ∧ (∀ m ∈ s.mirrors, m.inSpace = true) ∧
    Mirror.tableWf s.mirrors = true

/-- Every byte listed lies in a RAM or an I/O register block (R32): external targets keep their own. -/
def State.StorageOwned (s : State) : Prop :=
  ∀ c ∈ s.mem, owner s.attach (BitVec.ofNat 16 c.1) = some .ram ∨
    owner s.attach (BitVec.ofNat 16 c.1) = some .io

/-- The invariant of the machine: storage in canonical form and only where storage is attached, a legal
bus, and B = 1 (R25). -/
structure State.Inv (s : State) : Prop where
  storage : s.mem.wf
  owned : s.StorageOwned
  bus : s.BusWf
  breakFlag : s.p.b = true

end Sys2Proof.Machine
end

