-- ==== Sys2Proof/Certificates/Slice0/Obligations.lean ====
section
/-!
DEFINITION. The statements for the provers, each from the numbered rules of spec/. An instruction's
statement gives its encoding, the whole next state where its accesses are attached, and the whole next
state, with the address recorded, where one is not. The instruction's bytes have been fetched,
so PC is past it (log 15); a BusFault is a next state (log 2).
-/
namespace Sys2Proof.Claims

open Sys2Proof.Machine

/-! ### Results, as arithmetic -/

/-- `SetZN(r)` (R116). -/
def zn (p : Status) (r : Byte) : Status := { p with z := decide (r = 0#8), n := r.msb }

/-- P as a number (R23), with a value given for bit 4. -/
def statusByte (p : Status) (bit4 : Bool) : Byte :=
  BitVec.ofNat 8 (128 * p.n.toNat + 64 * p.v.toNat + 32 + 16 * bit4.toNat + 8 * p.d.toNat +
    4 * p.i.toNat + 2 * p.z.toNat + p.c.toNat)

/-- P after `StatusFromStack(v)` (R222). -/
def pulledStatus (p : Status) (v : Byte) : Status :=
  { n := v.toNat.testBit 7, v := v.toNat.testBit 6, b := p.b, d := v.toNat.testBit 3
    i := v.toNat.testBit 2, z := v.toNat.testBit 1, c := v.toNat.testBit 0 }

/-- A after adding `v` and the carry (R160). -/
def sumOf (s : State) (v : Byte) : Byte := BitVec.ofNat 8 (s.a.toNat + v.toNat + s.p.c.toNat)

/-- The effect of ADC with operand `v` on `t`, the state after the operand is read, A and C being those of
`s` (R160, R162). -/
def added (s : State) (v : Byte) (t : State) : State :=
  { t with
    a := sumOf s v
    p := { zn s.p (sumOf s v) with
      c := decide (s.a.toNat + v.toNat + s.p.c.toNat > 255)
      v := decide (s.a.msb = v.msb ∧ s.a.msb ≠ (sumOf s v).msb) } }

/-- The effect of a load into a register. -/
def loadedA (_ : State) (v : Byte) (t : State) : State := { t with a := v, p := zn t.p v }

/-- The effect of LDX. -/
def loadedX (_ : State) (v : Byte) (t : State) : State := { t with x := v, p := zn t.p v }

/-- The effect of LDY. -/
def loadedY (_ : State) (v : Byte) (t : State) : State := { t with y := v, p := zn t.p v }

/-- The flags of `Compare(reg, v)` (R190). -/
def compared (reg : Byte) (v : Byte) (t : State) : State :=
  { t with
    p := { zn t.p (BitVec.ofNat 8 (reg.toNat + 256 - v.toNat)) with
      c := decide (reg.toNat ≥ v.toNat) } }

/-- The flags of BIT (R194). -/
def bitTested (s : State) (v : Byte) (t : State) : State :=
  { t with
    p := { t.p with
      z := decide ((s.a &&& v).toNat = 0), n := v.toNat.testBit 7, v := v.toNat.testBit 6 } }

/-- The flags of a shift with result `r` and bit `c` shifted out (R180). -/
def shifted (p : Status) (r : Byte) (c : Bool) : Status := { zn p r with c := c }

/-- Twice `v`, `c` coming in at bit 0 (R181, R183). -/
def leftOf (v : Byte) (c : Bool) : Byte := BitVec.ofNat 8 (2 * v.toNat + c.toNat)

/-- Half of `v`, `c` coming in at bit 7 (R182, R184). -/
def rightOf (v : Byte) (c : Bool) : Byte := BitVec.ofNat 8 (v.toNat / 2 + 128 * c.toNat)

/-! ### Forms of statement -/

/-- The state with one more access forwarded to an external target (R54). -/
def forwarded (s : State) (id : Nat) (c : Word) (d : Dir) (v : Byte) : State :=
  { s with ext := { target := id, addr := c, dir := d, value := v } :: s.ext }

/-- An instruction of the read class (R132): opcode `op`, operand `src`; `eff s v t` is the state its
effect makes of `t`, the state once `v` is read, `s` being the state before. With an address unattached
the first one in the order read is recorded (R133, R271). -/
def ReadForm (op : Byte) (i : Instr) (src : Source) (eff : State → Byte → State → State) : Prop :=
  encode i = op :: src.bytes ∧
  (∀ s, src.Reachable s → exec i s = .next (eff s (src.value s) (src.after s))) ∧
  ∀ s, ¬ src.Reachable s → exec i s = .next (src.readFault s)

/-- ADC and SBC: as `ReadForm`, but refused with D = 1 under `DECIMAL_POLICY = refuse` (R161). -/
def AddForm (op : Byte) (i : Instr) (src : Source) (eff : State → Byte → State → State) : Prop :=
  encode i = op :: src.bytes ∧
  (∀ s, s.p.d = true → s.params.decimal = .refuse → exec i s = .refused .decimalMode) ∧
  (∀ s, (s.p.d = false ∨ s.params.decimal = .binary) → src.Reachable s →
    exec i s = .next (eff s (src.value s) (src.after s))) ∧
  ∀ s, (s.p.d = false ∨ s.params.decimal = .binary) → ¬ src.Reachable s →
    exec i s = .next (src.readFault s)

/-- An instruction of the write class (R132): opcode `op`, mode `m`, storing `v`. A pointer byte that is
unattached is a fault of a read; the cell itself, of the write. -/
def StoreForm (op : Byte) (i : Instr) (m : Mode) (v : State → Byte) : Prop :=
  encode i = op :: m.bytes ∧
  (∀ s, m.Reachable s → exec i s = .next ((m.after s).afterWrite (m.addr s) (v s))) ∧
  (∀ s, m.PointerAttached s → ¬ s.Attached (m.addr s) →
    exec i s = .next (busFaulted (m.after s) (m.addr s) .write)) ∧
  ∀ s, ¬ m.PointerAttached s → exec i s = .next (m.readFault s)

/-- A memory form of the read-modify-write class (R132): opcode `op`, mode `m`; `f s v` is the byte stored
for the byte `v` read, and `p s v` the status after. -/
def ModifyForm (op : Byte) (i : Instr) (m : Mode) (f : State → Byte → Byte)
    (p : State → Byte → Status) : Prop :=
  encode i = op :: m.bytes ∧
  (∀ s, m.Reachable s → exec i s = .next
    { ((m.after s).afterRead (m.addr s)).afterWrite (m.addr s) (f s ((m.after s).byteAt (m.addr s)))
      with p := p s ((m.after s).byteAt (m.addr s)) }) ∧
  ∀ s, ¬ m.Reachable s → exec i s = .next (m.readFault s)

/-- An instruction with no operand byte and no access: opcode `op`, effect `eff`. -/
def PlainForm (op : Byte) (i : Instr) (eff : State → State) : Prop :=
  encode i = [op] ∧ ∀ s, exec i s = .next (eff s)

/-- A conditional branch (R200): opcode `op`, condition `cond` on the flags. -/
def BranchForm (op : Byte) (i : Byte → Instr) (cond : Status → Bool) : Prop :=
  ∀ rr, encode (i rr) = [op, rr] ∧ ∀ s,
    (cond s.p = true →
      exec (i rr) s = .next { s with pc := BitVec.ofInt 16 (s.pc.toNat + rr.toInt) }) ∧
    (cond s.p = false → exec (i rr) s = .next s)

/-- An instruction that pushes one byte (R220), or faults and pushes nothing. -/
def PushForm (op : Byte) (i : Instr) (v : State → Byte) (eff : State → State) : Prop :=
  encode i = [op] ∧
  (∀ s, s.PushAttached → exec i s = .next (eff (s.pushed (v s)))) ∧
  ∀ s, ¬ s.PushAttached → exec i s = .next (busFaulted s s.stackSlot .write)

/-- An instruction that pulls one byte (R221), or faults with SP moved. -/
def PullForm (op : Byte) (i : Instr) (eff : Byte → State → State) : Prop :=
  encode i = [op] ∧
  (∀ s, s.PullAttached → exec i s = .next (eff s.pullByte s.pulled)) ∧
  ∀ s, ¬ s.PullAttached → exec i s = .next (busFaulted s.spUp s.spUp.stackSlot .read)

/-- The default map of R63 with the mirrors of R64 and R65, and for a 16 KB image that of R66. -/
def DefaultMap (s : State) : Prop :=
  s.attach = State.reset.attach ∧
  (s.mirrors = State.reset.mirrors ∨
    ∃ io ram, State.reset.mirrors = [io, ram] ∧
      s.mirrors = [io, { lo := 0xC000, canon := 0x8000, len := 0x4000, count := 1 }, ram])

/-- The decoder refuses the byte as illegal, whatever follows it. -/
def RefusedOpcode (op : Byte) : Prop :=
  ∀ rest, decode (op :: rest) = .error (.illegalOpcode op)

/-- The 105 unpopulated opcode bytes, as R94 lists them. -/
def illegalBytes : List Byte :=
  [ 0x02, 0x03, 0x04, 0x07, 0x0B, 0x0C, 0x0F, 0x12, 0x13, 0x14, 0x17, 0x1A, 0x1B, 0x1C, 0x1F, 0x22,
    0x23, 0x27, 0x2B, 0x2F, 0x32, 0x33, 0x34, 0x37, 0x3A, 0x3B, 0x3C, 0x3F, 0x42, 0x43, 0x44, 0x47,
    0x4B, 0x4F, 0x52, 0x53, 0x54, 0x57, 0x5A, 0x5B, 0x5C, 0x5F, 0x62, 0x63, 0x64, 0x67, 0x6B, 0x6F,
    0x72, 0x73, 0x74, 0x77, 0x7A, 0x7B, 0x7C, 0x7F, 0x80, 0x82, 0x83, 0x87, 0x89, 0x8B, 0x8F, 0x92,
    0x93, 0x97, 0x9B, 0x9C, 0x9E, 0x9F, 0xA3, 0xA7, 0xAB, 0xAF, 0xB2, 0xB3, 0xB7, 0xBB, 0xBF, 0xC2,
    0xC3, 0xC7, 0xCB, 0xCF, 0xD2, 0xD3, 0xD4, 0xD7, 0xDA, 0xDB, 0xDC, 0xDF, 0xE2, 0xE3, 0xE7, 0xEB,
    0xEF, 0xF2, 0xF3, 0xF4, 0xF7, 0xFA, 0xFB, 0xFC, 0xFF ]

/-- The canonical address the last range of `ms` that holds `a` redirects it to, pairwise onto the range
from `lo` (R56); `else_` when none holds it. -/
def pairwise (lo : Nat) (a : Word) (else_ : Word) : List Range → Word
  | [] => else_
  | m :: rest =>
    pairwise lo a (if m.lo ≤ a.toNat ∧ a.toNat < m.hi then BitVec.ofNat 16 (lo + (a.toNat - m.lo))
      else else_) rest

end Sys2Proof.Claims

open Sys2Proof Sys2Proof.Machine Sys2Proof.Claims

/-- Setup leaves the registers at the values the spec gives. Every launch that raised nothing,
whatever the platform, parameters and image, leaves P = 0x34, A = X = Y = 0x00, SP = 0xFD.
[70_reset_and_hazards.md section 2, 10_state.md section 7] -/
def Obligations.LaunchSetsRegisters : Prop :=
  ∀ s, CleanLaunch s →
    s.p.toByte = 0x34#8 ∧ s.p.i = true ∧ s.p.d = false ∧ s.p.b = true ∧
    s.a = 0x00#8 ∧ s.x = 0x00#8 ∧ s.y = 0x00#8 ∧ s.sp = 0xFD#8

/-- A launch on the default map gives the state the spec tabulates. For any parameters, a 16384- or
32768-byte image and any storage with nothing in the I/O block, the launch is Running, RAM and the
I/O block read 0x00, byte i of the image is at 0x8000 + i, and PC is the vector in the last four
bytes of the image. That 0x01FE and 0x01FF read 0x00 is the model's reading of R294 and R295,
which differ on them (log 17). [10_state.md section 7, 70_reset_and_hazards.md section 2, R297] -/
def Obligations.LaunchOnDefaultMap : Prop :=
  ∀ params initial image regs, Config.imageWf image = true →
    (∀ c ∈ initial, ¬ (0x2000 ≤ c.1 % 0x10000 ∧ c.1 % 0x10000 < 0x2008)) →
    ∃ s, launch params Config.platformTargets initial image regs = .next s ∧
      s.run = .running ∧ s.params = params ∧ DefaultMap s ∧ s.ext = [] ∧
      (∀ k, k < 0x0800 → s.cell (BitVec.ofNat 16 k) = 0x00#8) ∧
      (∀ k, k < 8 → s.cell (BitVec.ofNat 16 (0x2000 + k)) = 0x00#8) ∧
      (∀ k, k < image.length → s.cell (BitVec.ofNat 16 (0x8000 + k)) = image.getD k 0x00#8) ∧
      s.pc = BitVec.ofNat 16 ((image.getD (image.length - 3) 0x00#8).toNat * 256 +
        (image.getD (image.length - 4) 0x00#8).toNat)

/-- State.reset is the launch of the blank 32 KB image on the default map. Setup on the default map
with the default parameters, nothing stored before, and 32768 bytes of 0x00 leaves State.reset,
whatever the registers held. The blank image is the model's choice (log 4). [10_state.md section
7, 70_reset_and_hazards.md section 2] -/
def Obligations.ResetIsBlankLaunch : Prop :=
  ∀ regs, launch Params.default Config.platformTargets [] (List.replicate 32768 0x00#8) regs =
    .next State.reset

/-- Setup is refused when a precondition fails. Setup on a bus with mirrors is refused as used; on a
fresh bus with an entry in an I/O register block, as not empty; else for an image of neither 16384
nor 32768 bytes, by its length. Which refusal comes first is the model's choice (log 12).
[70_reset_and_hazards.md section 1, 60_exceptions.md section 5] -/
def Obligations.SetupRefusals : Prop :=
  (∀ image s, s.mirrors ≠ [] → setup image s = .refused .usedBus) ∧
  (∀ image s c, s.mirrors = [] → c ∈ s.mem → owner s.attach (BitVec.ofNat 16 c.1) = some .io →
    setup image s = .refused .ioNotEmpty) ∧
  (∀ image s, s.mirrors = [] → (∀ c ∈ s.mem, owner s.attach (BitVec.ofNat 16 c.1) ≠ some .io) →
    image.length ≠ 16384 → image.length ≠ 32768 → setup image s = .refused .imageLength)

/-- The invariant holds at reset. State.reset, the launch of the model's blank image (log 4), has its
storage in canonical form, a legal bus, and B = 1. [10_state.md section 7] -/
def Obligations.InvariantAtReset : Prop :=
  State.reset.Inv

/-- Decoding an encoded instruction gives it back. For every instruction, with every operand at every
value, the decoder reads encode i as i and leaves the bytes after it. [30_encoding.md section 1,
30_encoding.md section 2] -/
def Obligations.DecodeEncodeAgree : Prop :=
  ∀ i rest, decode (encode i ++ rest) = .ok (i, rest)

/-- The decoder accepts nothing but encodings. Whatever bytes the decoder reads as i are encode i
followed by the bytes it leaves. [30_encoding.md section 1, 30_encoding.md section 2] -/
def Obligations.DecodedBytesAreEncoded : Prop :=
  ∀ bs i rest, decode bs = .ok (i, rest) → bs = encode i ++ rest

/-- Exactly the 105 bytes the spec lists have no instruction. The decoder refuses a byte by name as
illegal just when it is one of the 105 bytes of the list, and the list has 105 different bytes.
[30_encoding.md section 2] -/
def Obligations.IllegalBytesRefused : Prop :=
  illegalBytes.length = 105 ∧ illegalBytes.Nodup ∧
  ∀ op rest, decode (op :: rest) = .error (.illegalOpcode op) ↔ op ∈ illegalBytes

/-- Words written out from the spec decode to their instructions. One or more words of each family,
written from the spec's encodings and examples, decode to the instruction they stand for.
[30_encoding.md section 3, 95_test_vectors.md] -/
def Obligations.SampleWordsDecode : Prop :=
  decode [0xA9#8, 0x10#8] = .ok (.ldaImm 0x10#8, []) ∧
  decode [0x8D#8, 0x00#8, 0x02#8] = .ok (.staAbs 0x0200#16, []) ∧
  decode [0x69#8, 0x50#8] = .ok (.adcImm 0x50#8, []) ∧
  decode [0x6E#8, 0x00#8, 0x02#8] = .ok (.rorAbs 0x0200#16, []) ∧
  decode [0xC9#8, 0x20#8] = .ok (.cmpImm 0x20#8, []) ∧
  decode [0xD0#8, 0xF8#8] = .ok (.bne 0xF8#8, []) ∧
  decode [0x6C#8, 0xFF#8, 0x02#8] = .ok (.jmpInd 0x02FF#16, []) ∧
  decode [0x20#8, 0x10#8, 0x80#8] = .ok (.jsr 0x8010#16, []) ∧
  decode [0xE8#8, 0xEA#8] = .ok (.inx, [0xEA#8])

/-- A step runs the instruction decoded at PC. When the run state is Running and the bytes at PC, each
attached, decode to i, the step is exec i on the state those fetches leave, whose PC is past the
bytes. That exec is given the instruction fetched is the model's form (log 15).
[40_fetch_decode_addressing.md section 1, 40_fetch_decode_addressing.md section 2, R113] -/
def Obligations.StepRunsDecoded : Prop :=
  ∀ s t i bs, s.run = .running → decode bs = .ok (i, []) → Fetches bs s t →
    step s = exec i t ∧ t.pc = BitVec.ofNat 16 (s.pc.toNat + bs.length)

/-- A step from Halted or Faulted answers a named fault and no state. From Halted and from Faulted,
where the spec defines no step, step answers a named fault and no state. That the stop is these
named faults is the model's choice (log 3). [R110, R281] -/
def Obligations.NoStepAfterTheEnd : Prop :=
  (∀ s, s.run = .halted → step s = .fault .stepAfterHalt) ∧
  ∀ s r, s.run = .faulted r → step s = .fault (.stepAfterFault r)

/-- An illegal opcode is recorded and leaves PC at it. A step whose opcode byte is attached and
unpopulated changes nothing but the run state, which becomes Faulted with the opcode and its
address, and the external history by that fetch; the step result is that fault. That the history
is a field is the model's choice (log 7), and so is the named fault that the next step answers
(log 3). [R270, R281] -/
def Obligations.IllegalOpcodeFaults : Prop :=
  ∀ s, s.run = .running → s.Attached s.pc → s.byteAt s.pc ∈ illegalBytes →
    ∃ t, step s = .next t ∧
      t = { s.afterRead s.pc with run := .faulted (.invalidOpcode (s.byteAt s.pc) s.pc) } ∧
      t.stepResult = .fault (.invalidOpcode (s.byteAt s.pc) s.pc) ∧
      step t = .fault (.stepAfterFault (.invalidOpcode (s.byteAt s.pc) s.pc))

/-- A fetch from an unattached address faults with PC at that byte. A fault on the opcode fetch leaves
PC at pc0; a fault on the first or second operand fetch leaves PC at that operand byte. Nothing
else changes but the run state and the history of external targets already read.
[40_fetch_decode_addressing.md section 1, 40_fetch_decode_addressing.md section 5] -/
def Obligations.FetchFaults : Prop :=
  (∀ s, s.run = .running → ¬ s.Attached s.pc →
    step s = .next (busFaulted s s.pc .read)) ∧
  ∀ s t bs i op rest tail, s.run = .running → decode (op :: rest) = .ok (i, []) →
    rest = bs ++ tail → tail ≠ [] → Fetches (op :: bs) s t → ¬ t.Attached t.pc →
    (s.p.d = false ∨ s.params.decimal = .binary) → step s = .next (busFaulted t t.pc .read)

/-- A bus access resolves once, then reaches the owner or faults. MemRead and MemWrite resolve the
address, raise BusFault with the address as issued when the canonical address has no owner, and
else read or store the byte there; an external target gets each access once, with the canonical
address, and its answer is the free value (log 7). [20_memory.md section 2, 20_memory.md section
4] -/
def Obligations.BusAccessRules : Prop :=
  ∀ a s,
    (owner s.attach (resolve s.mirrors a) = none →
      memRead a s = .stop (busFaulted s a .read) ∧
      ∀ v, memWrite a v s = .stop (busFaulted s a .write)) ∧
    (owner s.attach (resolve s.mirrors a) = some .ram ∨
        owner s.attach (resolve s.mirrors a) = some .io →
      memRead a s = .ok (s.mem.read (resolve s.mirrors a).toNat) s ∧
      ∀ v, memWrite a v s =
        .ok () { s with mem := s.mem.write (resolve s.mirrors a).toNat v }) ∧
    ∀ id, owner s.attach (resolve s.mirrors a) = some (.external id) →
      memRead a s = .ok (Config.externalRead id (resolve s.mirrors a) s.ext)
        (forwarded s id (resolve s.mirrors a) .read
          (Config.externalRead id (resolve s.mirrors a) s.ext)) ∧
      ∀ v, memWrite a v s = .ok () (forwarded s id (resolve s.mirrors a) .write v)

/-- A read returns the most recent write to its canonical address. After a write of v to an address of
storage, a read of any address of storage returns v when both resolve to one canonical address,
and else what it returned before. [20_memory.md section 2, 20_memory.md section 8] -/
def Obligations.ReadAfterWrite : Prop :=
  ∀ a b v s t, (s.target a = some .ram ∨ s.target a = some .io) →
    (s.target b = some .ram ∨ s.target b = some .io) →
    memWrite a v s = .ok () t →
    memRead b t = .ok (if s.canon b = s.canon a then v else s.cell b) t

/-- The mirrors of the default map. On the default map 0x0800–0x1FFF resolves to the low 11 bits,
0x2008–0x3FFF to 0x2000 and the low 3 bits, 0xC000–0xFFFF to 0x4000 less with the 16 KB mirror and
else to itself; every other address to itself. [20_memory.md section 5] -/
def Obligations.DefaultMirrors : Prop :=
  ∀ s a, DefaultMap s →
    s.canon a =
      if 0x0800 ≤ a.toNat ∧ a.toNat < 0x2000 then a &&& 0x07FF#16
      else if 0x2008 ≤ a.toNat ∧ a.toNat < 0x4000 then 0x2000#16 ||| (a &&& 0x0007#16)
      else if 0xC000 ≤ a.toNat ∧ s.mirrors.length = 3 then a - 0x4000#16
      else a

/-- The mirror call records each redirection pairwise, the last range winning. When mirror(canon, ms)
is accepted, an address in a range of ms resolves to the address at the same place in canon, and
an address in none resolves as before. That the later of two redirections holds is the model's
reading (log 10). [20_memory.md section 3] -/
def Obligations.MirrorIsPairwise : Prop :=
  ∀ canon ms table table', mirrorRanges canon ms table = .ok table' →
    ∀ a, resolve table' a = pairwise canon.lo a (resolve table a) ms

/-- Unequal lengths and chained mirrors are refused. mirror refuses ranges of unequal length; a table
it accepts has no canonical address that is itself a mirror address. That replaced redirections
and empty ranges count in that check is the model's choice (log 18). [20_memory.md section 3] -/
def Obligations.MirrorRefusals : Prop :=
  (∀ canon ms table, canon.wf = true → (∀ m ∈ ms, m.wf = true) →
      (∃ m ∈ ms, m.size ≠ canon.size) → mirrorRanges canon ms table = .error .mirrorLength) ∧
  ∀ canon ms table table', mirrorRanges canon ms table = .ok table' →
    Mirror.tableWf table' = true

/-- Resolution is one lookup and never chains. On a legal bus the canonical address of any address
resolves to itself. [20_memory.md section 3, 20_memory.md section 4] -/
def Obligations.ResolutionNeverChains : Prop :=
  ∀ (s : State) a, s.BusWf → s.canon (s.canon a) = s.canon a

/-- A later attach replaces the earlier owner. After attach of a legal range, an address in it is
owned by the new target and any other by its owner before; a range within the space is accepted,
whatever it overlaps; one beyond it is refused. That refusal, and accepting an empty range, is the
model's choice (log 11): the spec gives only the bound. [20_memory.md section 3] -/
def Obligations.AttachLastWins : Prop :=
  (∀ t table table', attachOne t table = .ok table' → ∀ c : Word,
      owner table' c = if t.range.lo ≤ c.toNat ∧ c.toNat < t.range.hi then some t.target
        else owner table c) ∧
  (∀ t table, t.range.lo ≤ t.range.hi → t.range.hi ≤ 0x10000 →
    attachOne t table = .ok (t :: table)) ∧
  ∀ t table, t.range.hi > 0x10000 → attachOne t table = .error .attachRange

/-- read16 is little-endian, low byte first. read16(a) reads a, then a + 1 mod 65536, or under
READ16_PAGE_WRAP the next byte of the page of a, and returns hi:lo; a failing read stops it. [R61] -/
def Obligations.Read16Rule : Prop :=
  ∀ a s,
    (s.params.read16PageWrap = false → s.highAddr a = a + 1#16) ∧
    (s.params.read16PageWrap = true →
      s.highAddr a = (a &&& 0xFF00#16) ||| ((a + 1#16) &&& 0x00FF#16)) ∧
    (s.Attached a → s.Attached (s.highAddr a) →
      read16 a s = .ok ((s.afterRead a).byteAt (s.highAddr a) ++ s.byteAt a)
        ((s.afterRead a).afterRead (s.highAddr a))) ∧
    (¬ s.Attached a → read16 a s = .stop (busFaulted s a .read)) ∧
    (s.Attached a → ¬ s.Attached (s.highAddr a) →
      read16 a s = .stop (busFaulted (s.afterRead a) (s.highAddr a) .read))

/-- Zero-page indexing wraps mod 256, or may reach 0x01FE. ZPIndex(b, r) is (b + r) mod 256 when
ZP_INDEX_WRAP holds and b + r when it does not, so it is below 0x0100, or at most 0x01FE. [R117] -/
def Obligations.ZeroPageIndexing : Prop :=
  ∀ b r,
    (zpIndex true b r).toNat = (b.toNat + r.toNat) % 256 ∧
    (zpIndex false b r).toNat = b.toNat + r.toNat ∧
    (zpIndex true b r).toNat < 0x0100 ∧ (zpIndex false b r).toNat ≤ 0x01FE ∧
    Params.default.zpIndexWrap = true

/-- The adder gives the sum, the carry out and the signed overflow. AddWithCarry(a, b, c) is the sum
mod 256, carry out just when the exact sum is above 255, and overflow just when the signed sum is
outside -128..127, which is when both inputs have one sign and the result the other. [R160] -/
def Obligations.AdderRule : Prop :=
  ∀ (a b : Byte) (c : Bool),
    (addWithCarry a b c).1 = BitVec.ofNat 8 (a.toNat + b.toNat + c.toNat) ∧
    ((addWithCarry a b c).2.1 = true ↔ a.toNat + b.toNat + c.toNat > 255) ∧
    ((addWithCarry a b c).2.2 = true ↔
      (a.msb = b.msb ∧ a.msb ≠ (addWithCarry a b c).1.msb)) ∧
    ((addWithCarry a b c).2.2 = true ↔
      ¬ (-128 ≤ a.toInt + b.toInt + c.toNat ∧ a.toInt + b.toInt + c.toNat ≤ 127))

/-- LDA, LDX and LDY load their register and set Z and N. Every form of LDA, LDX and LDY: its
encoding; the register becomes the operand and Z and N follow from it, nothing else changing; the
whole next state is given where the operand is reachable, and where it is not, the BusFault
recording the first unattached address in the order read (pointer, its high byte, operand); on the
default map a load from 0x4000–0x7FFF faults and one from an I/O mirror reads the canonical
register. [41_load_store.md section Loads] -/
def Obligations.LoadsSetRegisterAndZN : Prop :=
  (∀ s ww, DefaultMap s → 0x4000 ≤ ww.toNat → ww.toNat < 0x8000 →
    exec (.ldaAbs ww) s = .next (busFaulted s ww .read)) ∧
  (∀ s ww, DefaultMap s → 0x2008 ≤ ww.toNat → ww.toNat < 0x4000 →
    exec (.ldaAbs ww) s = exec (.ldaAbs (0x2000#16 ||| (ww &&& 0x0007#16))) s) ∧
  (∀ nn, ReadForm 0xA9#8 (.ldaImm nn) (.imm nn) loadedA) ∧
  (∀ nn, ReadForm 0xA5#8 (.ldaZp nn) (.mem (.zp nn)) loadedA) ∧
  (∀ nn, ReadForm 0xB5#8 (.ldaZpx nn) (.mem (.zpx nn)) loadedA) ∧
  (∀ ww, ReadForm 0xAD#8 (.ldaAbs ww) (.mem (.abs ww)) loadedA) ∧
  (∀ ww, ReadForm 0xBD#8 (.ldaAbsx ww) (.mem (.absx ww)) loadedA) ∧
  (∀ ww, ReadForm 0xB9#8 (.ldaAbsy ww) (.mem (.absy ww)) loadedA) ∧
  (∀ nn, ReadForm 0xA1#8 (.ldaIndx nn) (.mem (.indx nn)) loadedA) ∧
  (∀ nn, ReadForm 0xB1#8 (.ldaIndy nn) (.mem (.indy nn)) loadedA) ∧
  (∀ nn, ReadForm 0xA2#8 (.ldxImm nn) (.imm nn) loadedX) ∧
  (∀ nn, ReadForm 0xA6#8 (.ldxZp nn) (.mem (.zp nn)) loadedX) ∧
  (∀ nn, ReadForm 0xB6#8 (.ldxZpy nn) (.mem (.zpy nn)) loadedX) ∧
  (∀ ww, ReadForm 0xAE#8 (.ldxAbs ww) (.mem (.abs ww)) loadedX) ∧
  (∀ ww, ReadForm 0xBE#8 (.ldxAbsy ww) (.mem (.absy ww)) loadedX) ∧
  (∀ nn, ReadForm 0xA0#8 (.ldyImm nn) (.imm nn) loadedY) ∧
  (∀ nn, ReadForm 0xA4#8 (.ldyZp nn) (.mem (.zp nn)) loadedY) ∧
  (∀ nn, ReadForm 0xB4#8 (.ldyZpx nn) (.mem (.zpx nn)) loadedY) ∧
  (∀ ww, ReadForm 0xAC#8 (.ldyAbs ww) (.mem (.abs ww)) loadedY) ∧
  (∀ ww, ReadForm 0xBC#8 (.ldyAbsx ww) (.mem (.absx ww)) loadedY)

/-- STA, STX and STY store their register and change nothing else. Every form of STA, STX and STY: its
encoding; the byte at EA becomes the register, no flag or register changing; a BusFault of a write
at an unattached EA stores nothing, and an unattached pointer byte is a BusFault of a read, the
first of the two recorded; on the default map a store to 0x4000–0x7FFF faults and any other is
seen at every address that resolves alike, the PRG block included. [41_load_store.md section
Stores] -/
def Obligations.StoresWriteTheirCell : Prop :=
  (∀ s ww, DefaultMap s → 0x4000 ≤ ww.toNat → ww.toNat < 0x8000 →
    exec (.staAbs ww) s = .next (busFaulted s ww .write)) ∧
  (∀ s ww, DefaultMap s → (ww.toNat < 0x4000 ∨ 0x8000 ≤ ww.toNat) →
    ∃ t, exec (.staAbs ww) s = .next t ∧ ∀ b, s.canon b = s.canon ww → t.cell b = s.a) ∧
  (∀ nn, StoreForm 0x85#8 (.staZp nn) (.zp nn) (·.a)) ∧
  (∀ nn, StoreForm 0x95#8 (.staZpx nn) (.zpx nn) (·.a)) ∧
  (∀ ww, StoreForm 0x8D#8 (.staAbs ww) (.abs ww) (·.a)) ∧
  (∀ ww, StoreForm 0x9D#8 (.staAbsx ww) (.absx ww) (·.a)) ∧
  (∀ ww, StoreForm 0x99#8 (.staAbsy ww) (.absy ww) (·.a)) ∧
  (∀ nn, StoreForm 0x81#8 (.staIndx nn) (.indx nn) (·.a)) ∧
  (∀ nn, StoreForm 0x91#8 (.staIndy nn) (.indy nn) (·.a)) ∧
  (∀ nn, StoreForm 0x86#8 (.stxZp nn) (.zp nn) (·.x)) ∧
  (∀ nn, StoreForm 0x96#8 (.stxZpy nn) (.zpy nn) (·.x)) ∧
  (∀ ww, StoreForm 0x8E#8 (.stxAbs ww) (.abs ww) (·.x)) ∧
  (∀ nn, StoreForm 0x84#8 (.styZp nn) (.zp nn) (·.y)) ∧
  (∀ nn, StoreForm 0x94#8 (.styZpx nn) (.zpx nn) (·.y)) ∧
  (∀ ww, StoreForm 0x8C#8 (.styAbs ww) (.abs ww) (·.y))

/-- ADC adds the operand and the carry. Every form of ADC: its encoding; A becomes A + v + C mod 256,
C the unsigned and V the signed overflow, Z and N from A; refused in decimal mode under the
refusing policy; the whole next state is given where the operand is reachable, and where it is
not, the BusFault recording the first unattached address in the order read (pointer, its high
byte, operand). [42_arithmetic_logic.md ADC] -/
def Obligations.AdcAddsWithCarry : Prop :=
  (∀ nn, AddForm 0x69#8 (.adcImm nn) (.imm nn) added) ∧
  (∀ nn, AddForm 0x65#8 (.adcZp nn) (.mem (.zp nn)) added) ∧
  (∀ nn, AddForm 0x75#8 (.adcZpx nn) (.mem (.zpx nn)) added) ∧
  (∀ ww, AddForm 0x6D#8 (.adcAbs ww) (.mem (.abs ww)) added) ∧
  (∀ ww, AddForm 0x7D#8 (.adcAbsx ww) (.mem (.absx ww)) added) ∧
  (∀ ww, AddForm 0x79#8 (.adcAbsy ww) (.mem (.absy ww)) added) ∧
  (∀ nn, AddForm 0x61#8 (.adcIndx nn) (.mem (.indx nn)) added) ∧
  (∀ nn, AddForm 0x71#8 (.adcIndy nn) (.mem (.indy nn)) added)

/-- SBC adds the complement of the operand and the carry. Every form of SBC: its encoding; A, C, V, Z
and N are those of adding 255 - v and C; refused in decimal mode under the refusing policy; the
whole next state is given where the operand is reachable, and where it is not, the BusFault
recording the first unattached address in the order read (pointer, its high byte, operand).
[42_arithmetic_logic.md SBC] -/
def Obligations.SbcAddsTheComplement : Prop :=
  (∀ nn, AddForm 0xE9#8 (.sbcImm nn) (.imm nn) (fun s v t => added s (BitVec.ofNat 8 (255 - v.toNat)) t)) ∧
  (∀ nn, AddForm 0xE5#8 (.sbcZp nn) (.mem (.zp nn)) (fun s v t => added s (BitVec.ofNat 8 (255 - v.toNat)) t)) ∧
  (∀ nn, AddForm 0xF5#8 (.sbcZpx nn) (.mem (.zpx nn)) (fun s v t => added s (BitVec.ofNat 8 (255 - v.toNat)) t)) ∧
  (∀ ww, AddForm 0xED#8 (.sbcAbs ww) (.mem (.abs ww)) (fun s v t => added s (BitVec.ofNat 8 (255 - v.toNat)) t)) ∧
  (∀ ww, AddForm 0xFD#8 (.sbcAbsx ww) (.mem (.absx ww)) (fun s v t => added s (BitVec.ofNat 8 (255 - v.toNat)) t)) ∧
  (∀ ww, AddForm 0xF9#8 (.sbcAbsy ww) (.mem (.absy ww)) (fun s v t => added s (BitVec.ofNat 8 (255 - v.toNat)) t)) ∧
  (∀ nn, AddForm 0xE1#8 (.sbcIndx nn) (.mem (.indx nn)) (fun s v t => added s (BitVec.ofNat 8 (255 - v.toNat)) t)) ∧
  (∀ nn, AddForm 0xF1#8 (.sbcIndy nn) (.mem (.indy nn)) (fun s v t => added s (BitVec.ofNat 8 (255 - v.toNat)) t))

/-- SBC is A - v - (1 - C), C clear on a borrow, V on signed overflow. For any A, v and C, the adder
on A, the complement of v, and C gives A - v - (1 - C) mod 256, carry out just when A >= v + (1 -
C), and overflow just when the signed difference is outside -128..127. [42_arithmetic_logic.md
SBC] -/
def Obligations.SbcIsSubtraction : Prop :=
  ∀ (a v : Byte) (c : Bool),
    (addWithCarry a (~~~v) c).1 = BitVec.ofInt 8 ((a.toNat : Int) - v.toNat - (1 - c.toNat)) ∧
    ((addWithCarry a (~~~v) c).2.1 = true ↔ v.toNat + (1 - c.toNat) ≤ a.toNat) ∧
    ((addWithCarry a (~~~v) c).2.2 = true ↔
      ¬ (-128 ≤ a.toInt - v.toInt - (1 - c.toNat) ∧ a.toInt - v.toInt - (1 - c.toNat) ≤ 127))

/-- AND, ORA and EOR combine the operand into A. Every form of AND, ORA and EOR: its encoding; A
becomes A and, or, exclusive-or v, Z and N follow from it, nothing else changing; the whole next
state is given where the operand is reachable, and where it is not, the BusFault recording the
first unattached address in the order read (pointer, its high byte, operand).
[42_arithmetic_logic.md section Logic] -/
def Obligations.LogicCombinesIntoA : Prop :=
  (∀ nn, ReadForm 0x29#8 (.andImm nn) (.imm nn) (fun s v t => loadedA s (s.a &&& v) t)) ∧
  (∀ nn, ReadForm 0x25#8 (.andZp nn) (.mem (.zp nn)) (fun s v t => loadedA s (s.a &&& v) t)) ∧
  (∀ nn, ReadForm 0x35#8 (.andZpx nn) (.mem (.zpx nn)) (fun s v t => loadedA s (s.a &&& v) t)) ∧
  (∀ ww, ReadForm 0x2D#8 (.andAbs ww) (.mem (.abs ww)) (fun s v t => loadedA s (s.a &&& v) t)) ∧
  (∀ ww, ReadForm 0x3D#8 (.andAbsx ww) (.mem (.absx ww)) (fun s v t => loadedA s (s.a &&& v) t)) ∧
  (∀ ww, ReadForm 0x39#8 (.andAbsy ww) (.mem (.absy ww)) (fun s v t => loadedA s (s.a &&& v) t)) ∧
  (∀ nn, ReadForm 0x21#8 (.andIndx nn) (.mem (.indx nn)) (fun s v t => loadedA s (s.a &&& v) t)) ∧
  (∀ nn, ReadForm 0x31#8 (.andIndy nn) (.mem (.indy nn)) (fun s v t => loadedA s (s.a &&& v) t)) ∧
  (∀ nn, ReadForm 0x09#8 (.oraImm nn) (.imm nn) (fun s v t => loadedA s (s.a ||| v) t)) ∧
  (∀ nn, ReadForm 0x05#8 (.oraZp nn) (.mem (.zp nn)) (fun s v t => loadedA s (s.a ||| v) t)) ∧
  (∀ nn, ReadForm 0x15#8 (.oraZpx nn) (.mem (.zpx nn)) (fun s v t => loadedA s (s.a ||| v) t)) ∧
  (∀ ww, ReadForm 0x0D#8 (.oraAbs ww) (.mem (.abs ww)) (fun s v t => loadedA s (s.a ||| v) t)) ∧
  (∀ ww, ReadForm 0x1D#8 (.oraAbsx ww) (.mem (.absx ww)) (fun s v t => loadedA s (s.a ||| v) t)) ∧
  (∀ ww, ReadForm 0x19#8 (.oraAbsy ww) (.mem (.absy ww)) (fun s v t => loadedA s (s.a ||| v) t)) ∧
  (∀ nn, ReadForm 0x01#8 (.oraIndx nn) (.mem (.indx nn)) (fun s v t => loadedA s (s.a ||| v) t)) ∧
  (∀ nn, ReadForm 0x11#8 (.oraIndy nn) (.mem (.indy nn)) (fun s v t => loadedA s (s.a ||| v) t)) ∧
  (∀ nn, ReadForm 0x49#8 (.eorImm nn) (.imm nn) (fun s v t => loadedA s (s.a ^^^ v) t)) ∧
  (∀ nn, ReadForm 0x45#8 (.eorZp nn) (.mem (.zp nn)) (fun s v t => loadedA s (s.a ^^^ v) t)) ∧
  (∀ nn, ReadForm 0x55#8 (.eorZpx nn) (.mem (.zpx nn)) (fun s v t => loadedA s (s.a ^^^ v) t)) ∧
  (∀ ww, ReadForm 0x4D#8 (.eorAbs ww) (.mem (.abs ww)) (fun s v t => loadedA s (s.a ^^^ v) t)) ∧
  (∀ ww, ReadForm 0x5D#8 (.eorAbsx ww) (.mem (.absx ww)) (fun s v t => loadedA s (s.a ^^^ v) t)) ∧
  (∀ ww, ReadForm 0x59#8 (.eorAbsy ww) (.mem (.absy ww)) (fun s v t => loadedA s (s.a ^^^ v) t)) ∧
  (∀ nn, ReadForm 0x41#8 (.eorIndx nn) (.mem (.indx nn)) (fun s v t => loadedA s (s.a ^^^ v) t)) ∧
  (∀ nn, ReadForm 0x51#8 (.eorIndy nn) (.mem (.indy nn)) (fun s v t => loadedA s (s.a ^^^ v) t))

/-- ASL and LSR shift by one, a zero coming in. Every form of ASL and LSR, on A and on memory: its
encoding; the result is 2v mod 256, or v / 2; C is the bit shifted out, Z and N follow from the
result, nothing else changing; a failing read changes neither flags nor memory and records the
first unattached address. [43_shift_rotate.md ASL, 43_shift_rotate.md LSR] -/
def Obligations.ShiftsMoveOneBit : Prop :=
  (PlainForm 0x0A#8 .aslAcc fun s =>
    { s with a := leftOf s.a false, p := shifted s.p (leftOf s.a false) (decide (s.a.toNat ≥ 128)) }) ∧
  (∀ nn, ModifyForm 0x06#8 (.aslZp nn) (.zp nn) (fun _ v => leftOf v false)
    (fun s v => shifted s.p (leftOf v false) (decide (v.toNat ≥ 128)))) ∧
  (∀ nn, ModifyForm 0x16#8 (.aslZpx nn) (.zpx nn) (fun _ v => leftOf v false)
    (fun s v => shifted s.p (leftOf v false) (decide (v.toNat ≥ 128)))) ∧
  (∀ ww, ModifyForm 0x0E#8 (.aslAbs ww) (.abs ww) (fun _ v => leftOf v false)
    (fun s v => shifted s.p (leftOf v false) (decide (v.toNat ≥ 128)))) ∧
  (∀ ww, ModifyForm 0x1E#8 (.aslAbsx ww) (.absx ww) (fun _ v => leftOf v false)
    (fun s v => shifted s.p (leftOf v false) (decide (v.toNat ≥ 128)))) ∧
  (PlainForm 0x4A#8 .lsrAcc fun s =>
    { s with a := rightOf s.a false, p := shifted s.p (rightOf s.a false) (decide (s.a.toNat % 2 = 1)) }) ∧
  (∀ nn, ModifyForm 0x46#8 (.lsrZp nn) (.zp nn) (fun _ v => rightOf v false)
    (fun s v => shifted s.p (rightOf v false) (decide (v.toNat % 2 = 1)))) ∧
  (∀ nn, ModifyForm 0x56#8 (.lsrZpx nn) (.zpx nn) (fun _ v => rightOf v false)
    (fun s v => shifted s.p (rightOf v false) (decide (v.toNat % 2 = 1)))) ∧
  (∀ ww, ModifyForm 0x4E#8 (.lsrAbs ww) (.abs ww) (fun _ v => rightOf v false)
    (fun s v => shifted s.p (rightOf v false) (decide (v.toNat % 2 = 1)))) ∧
  (∀ ww, ModifyForm 0x5E#8 (.lsrAbsx ww) (.absx ww) (fun _ v => rightOf v false)
    (fun s v => shifted s.p (rightOf v false) (decide (v.toNat % 2 = 1))))

/-- ROL and ROR rotate by one through the carry. Every form of ROL and ROR, on A and on memory: its
encoding; the old carry comes in, C is the bit shifted out, Z and N follow from the result,
nothing else changing; a failing read changes neither flags nor memory and records the first
unattached address. [43_shift_rotate.md ROL, 43_shift_rotate.md ROR] -/
def Obligations.RotatesGoThroughCarry : Prop :=
  (PlainForm 0x2A#8 .rolAcc fun s =>
    { s with a := leftOf s.a s.p.c, p := shifted s.p (leftOf s.a s.p.c) (decide (s.a.toNat ≥ 128)) }) ∧
  (∀ nn, ModifyForm 0x26#8 (.rolZp nn) (.zp nn) (fun s v => leftOf v s.p.c)
    (fun s v => shifted s.p (leftOf v s.p.c) (decide (v.toNat ≥ 128)))) ∧
  (∀ nn, ModifyForm 0x36#8 (.rolZpx nn) (.zpx nn) (fun s v => leftOf v s.p.c)
    (fun s v => shifted s.p (leftOf v s.p.c) (decide (v.toNat ≥ 128)))) ∧
  (∀ ww, ModifyForm 0x2E#8 (.rolAbs ww) (.abs ww) (fun s v => leftOf v s.p.c)
    (fun s v => shifted s.p (leftOf v s.p.c) (decide (v.toNat ≥ 128)))) ∧
  (∀ ww, ModifyForm 0x3E#8 (.rolAbsx ww) (.absx ww) (fun s v => leftOf v s.p.c)
    (fun s v => shifted s.p (leftOf v s.p.c) (decide (v.toNat ≥ 128)))) ∧
  (PlainForm 0x6A#8 .rorAcc fun s =>
    { s with a := rightOf s.a s.p.c, p := shifted s.p (rightOf s.a s.p.c) (decide (s.a.toNat % 2 = 1)) }) ∧
  (∀ nn, ModifyForm 0x66#8 (.rorZp nn) (.zp nn) (fun s v => rightOf v s.p.c)
    (fun s v => shifted s.p (rightOf v s.p.c) (decide (v.toNat % 2 = 1)))) ∧
  (∀ nn, ModifyForm 0x76#8 (.rorZpx nn) (.zpx nn) (fun s v => rightOf v s.p.c)
    (fun s v => shifted s.p (rightOf v s.p.c) (decide (v.toNat % 2 = 1)))) ∧
  (∀ ww, ModifyForm 0x6E#8 (.rorAbs ww) (.abs ww) (fun s v => rightOf v s.p.c)
    (fun s v => shifted s.p (rightOf v s.p.c) (decide (v.toNat % 2 = 1)))) ∧
  (∀ ww, ModifyForm 0x7E#8 (.rorAbsx ww) (.absx ww) (fun s v => rightOf v s.p.c)
    (fun s v => shifted s.p (rightOf v s.p.c) (decide (v.toNat % 2 = 1))))

/-- Nine rotates of the same byte restore it and the carry. Rotating a byte left nine times through
the carry gives the byte and the carry back, and a rotate right undoes a rotate left.
[43_shift_rotate.md ROL] -/
def Obligations.NineRotatesRestore : Prop :=
  ∀ (v : Byte) (c : Bool),
    ((fun q : Byte × Bool => shiftLeft q.2 q.1)^[9]) (v, c) = (v, c) ∧
    shiftRight (shiftLeft c v).2 (shiftLeft c v).1 = (v, c)

/-- CMP, CPX and CPY set C, Z and N and write no register. Every form of CMP, CPX and CPY: its
encoding; C is the unsigned register >= v, Z and N from the difference mod 256, nothing else
changing; the whole next state is given where the operand is reachable, and where it is not, the
BusFault recording the first unattached address in the order read (pointer, its high byte,
operand). [R190, R191, R192, R193] -/
def Obligations.ComparesSetCZN : Prop :=
  (∀ nn, ReadForm 0xC9#8 (.cmpImm nn) (.imm nn) (fun s v t => compared s.a v t)) ∧
  (∀ nn, ReadForm 0xC5#8 (.cmpZp nn) (.mem (.zp nn)) (fun s v t => compared s.a v t)) ∧
  (∀ nn, ReadForm 0xD5#8 (.cmpZpx nn) (.mem (.zpx nn)) (fun s v t => compared s.a v t)) ∧
  (∀ ww, ReadForm 0xCD#8 (.cmpAbs ww) (.mem (.abs ww)) (fun s v t => compared s.a v t)) ∧
  (∀ ww, ReadForm 0xDD#8 (.cmpAbsx ww) (.mem (.absx ww)) (fun s v t => compared s.a v t)) ∧
  (∀ ww, ReadForm 0xD9#8 (.cmpAbsy ww) (.mem (.absy ww)) (fun s v t => compared s.a v t)) ∧
  (∀ nn, ReadForm 0xC1#8 (.cmpIndx nn) (.mem (.indx nn)) (fun s v t => compared s.a v t)) ∧
  (∀ nn, ReadForm 0xD1#8 (.cmpIndy nn) (.mem (.indy nn)) (fun s v t => compared s.a v t)) ∧
  (∀ nn, ReadForm 0xE0#8 (.cpxImm nn) (.imm nn) (fun s v t => compared s.x v t)) ∧
  (∀ nn, ReadForm 0xE4#8 (.cpxZp nn) (.mem (.zp nn)) (fun s v t => compared s.x v t)) ∧
  (∀ ww, ReadForm 0xEC#8 (.cpxAbs ww) (.mem (.abs ww)) (fun s v t => compared s.x v t)) ∧
  (∀ nn, ReadForm 0xC0#8 (.cpyImm nn) (.imm nn) (fun s v t => compared s.y v t)) ∧
  (∀ nn, ReadForm 0xC4#8 (.cpyZp nn) (.mem (.zp nn)) (fun s v t => compared s.y v t)) ∧
  (∀ ww, ReadForm 0xCC#8 (.cpyAbs ww) (.mem (.abs ww)) (fun s v t => compared s.y v t))

/-- BIT sets Z from A and v, N and V from v. Both forms of BIT: the encoding; Z is set when A and v
have no bit in common, N and V are bits 7 and 6 of the memory byte, nothing else changing; there
is no immediate form, the decoder refusing 0x89; the whole next state is given where the operand
is reachable, and where it is not, the BusFault recording the first unattached address in the
order read (pointer, its high byte, operand). [44_compare_bit.md BIT] -/
def Obligations.BitTestsMemory : Prop :=
  RefusedOpcode 0x89#8 ∧
  (∀ nn, ReadForm 0x24#8 (.bitZp nn) (.mem (.zp nn)) bitTested) ∧
  (∀ ww, ReadForm 0x2C#8 (.bitAbs ww) (.mem (.abs ww)) bitTested)

/-- The eight branches move PC by the signed displacement on their flag. Each branch: its encoding;
with its flag condition PC becomes PC + sext(rr) mod 65536, without it nothing changes, PC being
already past the branch. [45_branch_jump.md section Conditional branches] -/
def Obligations.BranchesMovePc : Prop :=
  (BranchForm 0x90#8 .bcc fun p => !p.c) ∧
  (BranchForm 0xB0#8 .bcs fun p => p.c) ∧
  (BranchForm 0xF0#8 .beq fun p => p.z) ∧
  (BranchForm 0xD0#8 .bne fun p => !p.z) ∧
  (BranchForm 0x30#8 .bmi fun p => p.n) ∧
  (BranchForm 0x10#8 .bpl fun p => !p.n) ∧
  (BranchForm 0x50#8 .bvc fun p => !p.v) ∧
  (BranchForm 0x70#8 .bvs fun p => p.v)

/-- JMP goes to its operand, or to the word at its operand. JMP absolute sets PC to its operand; JMP
indirect sets PC to read16 of it, or faults with PC past the instruction at the first pointer byte
that is unattached; encodings 4C and 6C, low byte first. [45_branch_jump.md section Jump] -/
def Obligations.JmpSetsPc : Prop :=
  (∀ ww, encode (.jmpAbs ww) = 0x4C#8 :: wordBytes ww ∧
    ∀ s, exec (.jmpAbs ww) s = .next { s with pc := ww }) ∧
  (∀ ww, encode (.jmpInd ww) = 0x6C#8 :: wordBytes ww ∧
    (∀ s, s.WordAttached ww →
      exec (.jmpInd ww) s = .next { s.afterReadWord ww with pc := s.wordAt ww }) ∧
    (∀ s, ¬ s.Attached ww → exec (.jmpInd ww) s = .next (busFaulted s ww .read)) ∧
    ∀ s, s.Attached ww → ¬ s.Attached (s.highAddr ww) →
      exec (.jmpInd ww) s = .next (busFaulted (s.afterRead ww) (s.highAddr ww) .read))

/-- PHA and PHP push A, and P with bits 4 and 5 set. PHA and PHP: the encoding; the byte goes to
0x0100 + SP and SP goes down by one mod 256, nothing else changing; with the slot unattached
nothing changes but the BusFault. [R220, R223, R224] -/
def Obligations.PushesWriteTheStack : Prop :=
  (PushForm 0x48#8 .pha (·.a) id) ∧
  (PushForm 0x08#8 .php (fun s => statusByte s.p true) id)

/-- PLA pulls A and sets Z and N. PLA: the encoding; SP goes up by one mod 256, A becomes the byte at
0x0100 + SP, Z and N follow from it, nothing else changing; with the slot unattached SP has moved
and nothing else changes but the BusFault. [R221, R225] -/
def Obligations.PlaPullsIntoA : Prop :=
  PullForm 0x68#8 .pla fun v t => { t with a := v, p := zn t.p v }

/-- PLP pulls six flags, keeping B and bit 5. PLP: the encoding; N, V, D, I, Z and C come from the
pulled byte, B keeps its value and bit 5 reads 1, nothing else changing but SP; with the slot
unattached SP has moved and nothing else changes but the BusFault. [R222, R226] -/
def Obligations.PlpPullsStatus : Prop :=
  (PullForm 0x28#8 .plp fun v t => { t with p := pulledStatus t.p v }) ∧
  ∀ p v, (Status.fromStack p v).toByte = (v &&& 0xCF#8) ||| (p.toByte &&& 0x10#8) ||| 0x20#8

/-- JSR pushes PC - 1, high byte first, and jumps. JSR: its encoding; the high byte of PC - 1, then
the low byte, are pushed and PC becomes the target; PC is past the JSR, so the pushed word is the
address of its last byte; an unattached slot faults with the pushes before it standing.
[46_stack_subroutine.md JSR] -/
def Obligations.JsrPushesReturnAddress : Prop :=
  ∀ ww, encode (.jsr ww) = 0x20#8 :: wordBytes ww ∧ ∀ s,
    let hi : Byte := BitVec.ofNat 8 ((s.pc.toNat + 65535) % 65536 / 256)
    let lo : Byte := BitVec.ofNat 8 ((s.pc.toNat + 65535) % 256)
    (s.PushAttached → (s.pushed hi).PushAttached →
      exec (.jsr ww) s = .next { ((s.pushed hi).pushed lo) with pc := ww }) ∧
    (¬ s.PushAttached → exec (.jsr ww) s = .next (busFaulted s s.stackSlot .write)) ∧
    (s.PushAttached → ¬ (s.pushed hi).PushAttached →
      exec (.jsr ww) s =
        .next (busFaulted (s.pushed hi) (s.pushed hi).stackSlot .write))

/-- RTS pulls the low and the high byte and resumes one past them. RTS: the encoding; two pulls, low
byte first, and PC becomes hi:lo + 1 mod 65536; an unattached slot faults with SP moved that far.
[46_stack_subroutine.md RTS] -/
def Obligations.RtsPullsReturnAddress : Prop :=
  encode .rts = [0x60#8] ∧ ∀ s,
    (s.PullAttached → s.pulled.PullAttached →
      exec .rts s = .next { s.pulled.pulled with
        pc := BitVec.ofNat 16 (s.pulled.pullByte.toNat * 256 + s.pullByte.toNat + 1) }) ∧
    (¬ s.PullAttached →
      exec .rts s = .next (busFaulted s.spUp s.spUp.stackSlot .read)) ∧
    (s.PullAttached → ¬ s.pulled.PullAttached →
      exec .rts s = .next (busFaulted s.pulled.spUp s.pulled.spUp.stackSlot .read))

/-- BRK pushes P with bits 4 and 5 set, sets I, and halts. BRK: the encoding; P with bits 4 and 5 set
goes to the stack, I becomes 1, the run state Halted, PC staying one past the opcode, and the step
result Halted; with the slot unattached the core is Faulted and nothing else changes. [R229, R272] -/
def Obligations.BrkHalts : Prop :=
  (PushForm 0x00#8 .brk (fun s => statusByte s.p true)
    fun t => { t with p := { t.p with i := true }, run := .halted }) ∧
  ∀ s, s.run = .running → s.Attached s.pc → s.byteAt s.pc = 0x00#8 →
    (s.afterRead s.pc).PushAttached →
    ∃ t, step s = .next t ∧ t.stepResult = .haltedBreakSignal ∧ t.pc = s.pc + 1#16

/-- RTI pulls P, then PC low, then PC high. RTI: the encoding; three pulls give the six flags, the low
and the high byte of PC, with no +1; an unattached slot faults with the pulls before it standing,
the flags loaded once the first has succeeded. [R230] -/
def Obligations.RtiPullsStatusAndPc : Prop :=
  encode .rti = [0x40#8] ∧ ∀ s,
    let s1 : State := { s.pulled with p := pulledStatus s.p s.pullByte }
    (s.PullAttached → s1.PullAttached → s1.pulled.PullAttached →
      exec .rti s = .next { s1.pulled.pulled with
        pc := BitVec.ofNat 16 (s1.pulled.pullByte.toNat * 256 + s1.pullByte.toNat) }) ∧
    (¬ s.PullAttached →
      exec .rti s = .next (busFaulted s.spUp s.spUp.stackSlot .read)) ∧
    (s.PullAttached → ¬ s1.PullAttached →
      exec .rti s = .next (busFaulted s1.spUp s1.spUp.stackSlot .read)) ∧
    (s.PullAttached → s1.PullAttached → ¬ s1.pulled.PullAttached →
      exec .rti s = .next (busFaulted s1.pulled.spUp s1.pulled.spUp.stackSlot .read))

/-- The transfers copy a register; all but TXS set Z and N. TAX, TAY, TXA, TYA, TSX and TXS: the
encoding; the destination becomes the source, Z and N follow from it but for TXS, which sets no
flag; nothing else changes. [R240, R241, R242, R243, R244, R245] -/
def Obligations.TransfersCopyRegisters : Prop :=
  (PlainForm 0xAA#8 .tax fun s => { s with x := s.a, p := zn s.p s.a }) ∧
  (PlainForm 0xA8#8 .tay fun s => { s with y := s.a, p := zn s.p s.a }) ∧
  (PlainForm 0x8A#8 .txa fun s => { s with a := s.x, p := zn s.p s.x }) ∧
  (PlainForm 0x98#8 .tya fun s => { s with a := s.y, p := zn s.p s.y }) ∧
  (PlainForm 0xBA#8 .tsx fun s => { s with x := s.sp, p := zn s.p s.sp }) ∧
  (PlainForm 0x9A#8 .txs fun s => { s with sp := s.x }) ∧
  (exec .tsx State.reset = .next { State.reset with x := 0xFD#8, p := { State.reset.p with n := true } })

/-- INX, INY, DEX and DEY step their register and set Z and N. INX, INY, DEX and DEY: the encoding;
the register goes up or down by one mod 256, Z and N follow from it; C and V and all else are
unchanged. [R246, R247, R248, R249] -/
def Obligations.IndexSteps : Prop :=
  (PlainForm 0xE8#8 .inx fun s => { s with x := BitVec.ofNat 8 (s.x.toNat + 1), p := zn s.p (BitVec.ofNat 8 (s.x.toNat + 1)) }) ∧
  (PlainForm 0xC8#8 .iny fun s => { s with y := BitVec.ofNat 8 (s.y.toNat + 1), p := zn s.p (BitVec.ofNat 8 (s.y.toNat + 1)) }) ∧
  (PlainForm 0xCA#8 .dex fun s => { s with x := BitVec.ofNat 8 (s.x.toNat + 255), p := zn s.p (BitVec.ofNat 8 (s.x.toNat + 255)) }) ∧
  (PlainForm 0x88#8 .dey fun s => { s with y := BitVec.ofNat 8 (s.y.toNat + 255), p := zn s.p (BitVec.ofNat 8 (s.y.toNat + 255)) })

/-- INC and DEC step a memory cell and set Z and N. Every form of INC and DEC: its encoding; the byte
at EA is read once and written once, one up or down mod 256, Z and N follow from the result, C, V
and all else unchanged; there is no accumulator form, the decoder refusing 0x1A and 0x3A; a
failing read changes neither flags nor memory and records EA. [47_transfer_incdec_flags.md INC,
47_transfer_incdec_flags.md DEC] -/
def Obligations.MemorySteps : Prop :=
  RefusedOpcode 0x1A#8 ∧ RefusedOpcode 0x3A#8 ∧
  (∀ nn, ModifyForm 0xE6#8 (.incZp nn) (.zp nn) (fun _ v => BitVec.ofNat 8 (v.toNat + 1))
    (fun s v => zn s.p (BitVec.ofNat 8 (v.toNat + 1)))) ∧
  (∀ nn, ModifyForm 0xF6#8 (.incZpx nn) (.zpx nn) (fun _ v => BitVec.ofNat 8 (v.toNat + 1))
    (fun s v => zn s.p (BitVec.ofNat 8 (v.toNat + 1)))) ∧
  (∀ ww, ModifyForm 0xEE#8 (.incAbs ww) (.abs ww) (fun _ v => BitVec.ofNat 8 (v.toNat + 1))
    (fun s v => zn s.p (BitVec.ofNat 8 (v.toNat + 1)))) ∧
  (∀ ww, ModifyForm 0xFE#8 (.incAbsx ww) (.absx ww) (fun _ v => BitVec.ofNat 8 (v.toNat + 1))
    (fun s v => zn s.p (BitVec.ofNat 8 (v.toNat + 1)))) ∧
  (∀ nn, ModifyForm 0xC6#8 (.decZp nn) (.zp nn) (fun _ v => BitVec.ofNat 8 (v.toNat + 255))
    (fun s v => zn s.p (BitVec.ofNat 8 (v.toNat + 255)))) ∧
  (∀ nn, ModifyForm 0xD6#8 (.decZpx nn) (.zpx nn) (fun _ v => BitVec.ofNat 8 (v.toNat + 255))
    (fun s v => zn s.p (BitVec.ofNat 8 (v.toNat + 255)))) ∧
  (∀ ww, ModifyForm 0xCE#8 (.decAbs ww) (.abs ww) (fun _ v => BitVec.ofNat 8 (v.toNat + 255))
    (fun s v => zn s.p (BitVec.ofNat 8 (v.toNat + 255)))) ∧
  (∀ ww, ModifyForm 0xDE#8 (.decAbsx ww) (.absx ww) (fun _ v => BitVec.ofNat 8 (v.toNat + 255))
    (fun s v => zn s.p (BitVec.ofNat 8 (v.toNat + 255))))

/-- The seven flag instructions write one flag each. CLC, SEC, CLI, SEI, CLV, CLD and SED: the
encoding; the one flag takes its value and nothing else changes. [R252, R253, R254, R255, R256,
R257, R258] -/
def Obligations.FlagInstructionsWriteOneFlag : Prop :=
  (PlainForm 0x18#8 .clc fun s => { s with p := { s.p with c := false } }) ∧
  (PlainForm 0x38#8 .sec fun s => { s with p := { s.p with c := true } }) ∧
  (PlainForm 0x58#8 .cli fun s => { s with p := { s.p with i := false } }) ∧
  (PlainForm 0x78#8 .sei fun s => { s with p := { s.p with i := true } }) ∧
  (PlainForm 0xB8#8 .clv fun s => { s with p := { s.p with v := false } }) ∧
  (PlainForm 0xD8#8 .cld fun s => { s with p := { s.p with d := false } }) ∧
  (PlainForm 0xF8#8 .sed fun s => { s with p := { s.p with d := true } })

/-- NOP changes nothing but PC. NOP: the encoding; the next state is the state with PC past it, and
the decoder refuses the undocumented NOP bytes 0x1A, 0x80 and 0x04 as illegal. [R259] -/
def Obligations.NopDoesNothing : Prop :=
  PlainForm 0xEA#8 .nop id ∧ RefusedOpcode 0x1A#8 ∧ RefusedOpcode 0x80#8 ∧
  RefusedOpcode 0x04#8 ∧
  ∀ s, s.run = .running → s.Attached s.pc → s.byteAt s.pc = 0xEA#8 →
    step s = .next { s.afterRead s.pc with pc := s.pc + 1#16 }

/-- An instruction writes no register but those the spec lists for it. For every instruction and every
state it leaves, each of A, X, Y and SP outside the spec's written-by list for the instruction is
unchanged, also when it ends in a BusFault; PC is unchanged unless it is a branch, a jump or a
return. [10_state.md section 1, 10_state.md section 2] -/
def Obligations.RegisterFrame : Prop :=
  ∀ i s t, exec i s = .next t →
    (∀ r, r ∉ registersWritten i → t.register r = s.register r) ∧
    ((mnemonicOf i).mayJump = false → t.pc = s.pc)

/-- An instruction writes no flag but those the spec lists for it. For every instruction and every
state it leaves, each flag outside the spec's written-by list for the instruction is unchanged,
also when it ends in a BusFault; B is in no list. [10_state.md section 3] -/
def Obligations.FlagFrame : Prop :=
  ∀ i s t, exec i s = .next t →
    ∀ f, f ∉ (mnemonicOf i).flagsWritten → t.p.flag f = s.p.flag f

/-- An instruction changes no byte but those it stores to. For every instruction and every state it
leaves, the byte of storage behind every address that resolves to none of the addresses the
instruction stores to (its effective address, or the stack slots it pushes to) is unchanged.
[40_fetch_decode_addressing.md section 4, 20_memory.md section 7] -/
def Obligations.MemoryFrame : Prop :=
  ∀ i s t, exec i s = .next t →
    ∀ a, (∀ b ∈ storedAddrs i s, s.canon a ≠ s.canon b) → t.cell a = s.cell a

/-- No step writes the bus tables or the parameters. Every step that gives a state leaves the
attachment table, the mirror table and the parameters as they are, and the history of external
accesses only grows; without external targets it does not grow. That the parameters are a field of
the state, which no step writes, and the history another, is the model's choice (logs 1 and 7).
[00_scope.md section 3, 10_state.md section 6, 20_memory.md section 2] -/
def Obligations.ConfigurationFrame : Prop :=
  ∀ s t, step s = .next t →
    t.attach = s.attach ∧ t.mirrors = s.mirrors ∧ t.params = s.params ∧
    (∃ h, t.ext = h ++ s.ext) ∧
    ((∀ q ∈ s.attach, ∀ id, q.target ≠ .external id) → t.ext = s.ext)

/-- The run state changes only by BRK, an unattached access or an illegal opcode. For every
instruction and every state it leaves, the run state is unchanged, or it is Halted and the
instruction is BRK, or it is Faulted with a BusFault at an unattached address. For every step,
which starts from Running: it is still Running; or Halted, the byte at PC being 0x00; or Faulted
so, or with InvalidOpcode, the byte at PC being one of the 105. [60_exceptions.md section 1,
60_exceptions.md section 3] -/
def Obligations.RunStateFrame : Prop :=
  (∀ i s t, exec i s = .next t →
    t.run = s.run ∨ (i = .brk ∧ t.run = .halted) ∨
      ∃ a d, ¬ s.Attached a ∧ t.run = .faulted (.busFault a d)) ∧
  ∀ s t, step s = .next t →
    s.run = .running ∧
      (t.run = .running ∨ (s.byteAt s.pc = 0x00#8 ∧ t.run = .halted) ∨
        (∃ a d, ¬ s.Attached a ∧ t.run = .faulted (.busFault a d)) ∨
        (s.byteAt s.pc ∈ illegalBytes ∧
          t.run = .faulted (.invalidOpcode (s.byteAt s.pc) s.pc)))

/-- Every step keeps the invariant. From every state with its storage in canonical form and only in
RAM and I/O blocks, a legal bus, and B = 1, every step that gives a state gives one with the same.
[10_state.md section 3, 20_memory.md section 3, 20_memory.md section 2] -/
def Obligations.InvariantKept : Prop :=
  ∀ s t, s.Inv → step s = .next t → t.Inv

/-- A running core steps, but for a decimal ADC or SBC under the refusing policy. From every Running
state a step gives a next state, or the step is ADC or SBC, refused with D = 1 under the refusing
decimal policy: no instruction is privileged, unmodelled or without effect on any operand.
[60_exceptions.md section 4, 40_fetch_decode_addressing.md section 1] -/
def Obligations.RunningStepsUnlessDecimalRefused : Prop :=
  ∀ s, s.run = .running →
    (∃ t, step s = .next t) ∨
    (step s = .refused .decimalMode ∧ s.p.d = true ∧ s.params.decimal = .refuse ∧
      ∃ m, (m = Mnemonic.adc ∨ m = Mnemonic.sbc) ∧
        ∃ i rest, decode (s.byteAt s.pc :: rest) = .ok (i, []) ∧ mnemonicOf i = m)

/-- Only BRK halts the core. If a step from Running leaves the run state Halted, the byte at PC was
0x00. [60_exceptions.md section 1, 60_exceptions.md section 6] -/
def Obligations.OnlyBrkHalts : Prop :=
  ∀ s t, s.run = .running → step s = .next t → t.run = .halted → s.byteAt s.pc = 0x00#8

/-- On the default map only 0x4000–0x7FFF can raise BusFault. On the default map, for every
instruction and every operand, a step from Running that ends in a BusFault has the record of an
address in 0x4000–0x7FFF. [60_exceptions.md BusFault, 20_memory.md section 5] -/
def Obligations.DefaultMapFaultsInTheHole : Prop :=
  ∀ s t a d, DefaultMap s → s.run = .running → step s = .next t →
    t.run = .faulted (.busFault a d) → 0x4000 ≤ a.toNat ∧ a.toNat < 0x8000

/-- On the default map no push or pull faults. On the default map the stack slot of every SP is in
page 1 and in internal RAM, so PHA, PHP, PLA, PLP, JSR, RTS, RTI and BRK never end in a fault.
[46_stack_subroutine.md preamble, 10_state.md section 4] -/
def Obligations.StackStaysInRam : Prop :=
  ∀ s, DefaultMap s →
    (0x0100 ≤ s.stackSlot.toNat ∧ s.stackSlot.toNat ≤ 0x01FF ∧ s.target s.stackSlot = some .ram) ∧
    ∀ i t, (i = .pha ∨ i = .php ∨ i = .pla ∨ i = .plp ∨ (∃ ww, i = .jsr ww) ∨ i = .rts ∨ i = .rti ∨
        i = .brk) → exec i s = .next t → t.run = s.run ∨ (i = .brk ∧ t.run = .halted)

/-- PHA then PLA leaves A, and SP at its value before the push. With the stack slot in storage, PHA
followed by PLA leaves every register as it was, at any SP; only Z and N change, and they are set
from A; and the slot holds A. [46_stack_subroutine.md PLA, 95_test_vectors.md E2] -/
def Obligations.PhaPlaRoundTrip : Prop :=
  ∀ s, s.target s.stackSlot = some .ram →
    ∃ s1, exec .pha s = .next s1 ∧ s1.cell s.stackSlot = s.a ∧
      exec .pla s1 = .next { s with p := zn s.p s.a, mem := s1.mem }

/-- RTS undoes JSR. With both stack slots in storage and not the same byte, JSR followed by RTS
resumes past the JSR with SP and every register and flag as before. [46_stack_subroutine.md RTS,
46_stack_subroutine.md JSR] -/
def Obligations.JsrRtsRoundTrip : Prop :=
  ∀ s ww, s.target s.stackSlot = some .ram →
    s.target (stackAddr (s.sp - 1#8)) = some .ram →
    s.canon s.stackSlot ≠ s.canon (stackAddr (s.sp - 1#8)) →
    ∃ s1, exec (.jsr ww) s = .next s1 ∧ s1.pc = ww ∧ s1.sp = s.sp - 2#8 ∧
      exec .rts s1 = .next { s with mem := s1.mem }
end

