-- ==== Sys2Proof/Laws/Memory.lean ====
section
/-!
SUPPORT. Storage: a read after a write, for every list, canonical or not; and that every operation keeps
the canonical form.
-/
namespace Sys2Proof.Machine

theorem Memory.read_nil (a : Nat) : Memory.read [] a = Memory.unlisted := rfl

theorem Memory.read_erase_self (m : Memory) (a : Nat) : (m.erase a).read a = Memory.unlisted := by
  induction m with
  | nil => rfl
  | cons c rest ih =>
    obtain ⟨k, v⟩ := c
    by_cases h : k = a
    · simpa [Memory.erase, h] using ih
    · simpa [Memory.erase, Memory.read, h] using ih

theorem Memory.read_erase_other (m : Memory) {a b : Nat} (hab : a ≠ b) :
    (m.erase a).read b = m.read b := by
  induction m with
  | nil => rfl
  | cons c rest ih =>
    obtain ⟨k, v⟩ := c
    by_cases h : k = a
    · subst h
      simpa [Memory.erase, Memory.read, hab] using ih
    · by_cases hb : k = b
      · simp only [Memory.erase, if_neg h, Memory.read, if_pos hb]
      · simpa only [Memory.erase, if_neg h, Memory.read, if_neg hb] using ih

theorem Memory.mem_erase {m : Memory} {a : Nat} {c : Host.Cell} (h : c ∈ m.erase a) :
    c ∈ m ∧ c.1 ≠ a := by
  induction m with
  | nil => simp [Memory.erase] at h
  | cons d rest ih =>
    obtain ⟨k, v⟩ := d
    by_cases hk : k = a
    · rw [Memory.erase, if_pos hk] at h
      exact ⟨List.mem_cons_of_mem _ (ih h).1, (ih h).2⟩
    · rw [Memory.erase, if_neg hk, List.mem_cons] at h
      rcases h with rfl | h
      · exact ⟨by simp, hk⟩
      · exact ⟨List.mem_cons_of_mem _ (ih h).1, (ih h).2⟩

theorem Memory.mem_insert {m : Memory} {a : Nat} {v : Byte} {c : Host.Cell}
    (h : c ∈ m.insert a v) : c = (a, v) ∨ c ∈ m := by
  induction m with
  | nil => exact .inl (by simpa [Memory.insert] using h)
  | cons d rest ih =>
    obtain ⟨k, w⟩ := d
    by_cases hk : a < k
    · rw [Memory.insert, if_pos hk, List.mem_cons] at h
      exact h
    · rw [Memory.insert, if_neg hk, List.mem_cons] at h
      rcases h with rfl | h
      · exact .inr (by simp)
      · exact (ih h).imp id (List.mem_cons_of_mem _)

/-- Inserting at an address that no entry has. -/
theorem Memory.read_insert (m : Memory) {a : Nat} (v : Byte) (ha : ∀ c ∈ m, c.1 ≠ a) (b : Nat) :
    (m.insert a v).read b = if a = b then v else m.read b := by
  induction m with
  | nil => rfl
  | cons d rest ih =>
    obtain ⟨k, w⟩ := d
    have hk : k ≠ a := ha (k, w) (by simp)
    have ih := ih fun c hc => ha c (List.mem_cons_of_mem _ hc)
    by_cases hlt : a < k
    · rw [Memory.insert, if_pos hlt]
      rfl
    · rw [Memory.insert, if_neg hlt]
      by_cases hb : k = b
      · subst hb
        simp [Memory.read, Ne.symm hk]
      · simp [Memory.read, hb, ih]

/-- A read after a write (R52, R53): the byte written, at its address, and no other byte changed. -/
theorem Memory.read_write (m : Memory) (a b : Nat) (v : Byte) :
    (m.write a v).read b = if a = b then v else m.read b := by
  unfold Memory.write
  split
  · rename_i hv
    split
    · rename_i hab
      subst hab hv
      exact m.read_erase_self a
    · rename_i hab
      exact m.read_erase_other hab
  · rw [Memory.read_insert _ v (fun c hc => (Memory.mem_erase hc).2)]
    split
    · rfl
    · rename_i hab
      exact m.read_erase_other hab

/-- Every entry after a write is an old one or the one written. -/
theorem Memory.mem_write {m : Memory} {a : Nat} {v : Byte} {c : Host.Cell} (h : c ∈ m.write a v) :
    c = (a, v) ∨ c ∈ m := by
  unfold Memory.write at h
  split at h
  · exact .inr (Memory.mem_erase h).1
  · exact (Memory.mem_insert h).imp id fun h' => (Memory.mem_erase h').1

theorem Memory.pairwise_erase {m : Memory} (h : m.Pairwise fun c d => c.1 < d.1) (a : Nat) :
    (m.erase a).Pairwise fun c d => c.1 < d.1 := by
  induction m with
  | nil => exact h
  | cons d rest ih =>
    obtain ⟨k, w⟩ := d
    rw [List.pairwise_cons] at h
    by_cases hk : k = a
    · rw [Memory.erase, if_pos hk]
      exact ih h.2
    · rw [Memory.erase, if_neg hk, List.pairwise_cons]
      exact ⟨fun c hc => h.1 c (Memory.mem_erase hc).1, ih h.2⟩

theorem Memory.pairwise_insert {m : Memory} (h : m.Pairwise fun c d => c.1 < d.1) {a : Nat} (v : Byte)
    (ha : ∀ c ∈ m, c.1 ≠ a) : (m.insert a v).Pairwise fun c d => c.1 < d.1 := by
  induction m with
  | nil => exact List.pairwise_singleton _ _
  | cons d rest ih =>
    obtain ⟨k, w⟩ := d
    have hk : k ≠ a := ha (k, w) (by simp)
    rw [List.pairwise_cons] at h
    by_cases hlt : a < k
    · rw [Memory.insert, if_pos hlt, List.pairwise_cons, List.pairwise_cons]
      refine ⟨fun c hc => ?_, h⟩
      rcases List.mem_cons.1 hc with rfl | hc
      · exact hlt
      · exact Nat.lt_trans hlt (h.1 c hc)
    · rw [Memory.insert, if_neg hlt, List.pairwise_cons]
      refine ⟨fun c hc => ?_, ih h.2 fun c hc => ha c (List.mem_cons_of_mem _ hc)⟩
      rcases Memory.mem_insert hc with rfl | hc
      · exact Nat.lt_of_le_of_ne (Nat.le_of_not_lt hlt) hk
      · exact h.1 c hc

/-- A write inside the address space keeps the canonical form. -/
theorem Memory.write_wf {m : Memory} (h : m.wf) {a : Nat} (ha : a < 0x10000) (v : Byte) :
    (m.write a v).wf := by
  refine ⟨?_, fun c hc => ?_⟩
  · unfold Memory.write
    split
    · exact Memory.pairwise_erase h.1 a
    · exact Memory.pairwise_insert (Memory.pairwise_erase h.1 a) v fun c hc =>
        (Memory.mem_erase hc).2
  · unfold Memory.write at hc
    split at hc
    · exact h.2 c (Memory.mem_erase hc).1
    · rename_i hv
      rcases Memory.mem_insert hc with rfl | hc
      · exact ⟨ha, hv⟩
      · exact h.2 c (Memory.mem_erase hc).1

/-- Storing the byte an address already reads as changes nothing in a list that has no entry for it. -/
theorem Memory.write_unlisted_nil (a : Nat) : Memory.write [] a Memory.unlisted = [] := rfl

/-- The storage of the state after reset is in canonical form. -/
theorem State.reset_mem_wf : State.reset.mem.wf :=
  ⟨List.Pairwise.nil, fun _ hc => absurd hc List.not_mem_nil⟩

end Sys2Proof.Machine
end

