-- ==== Sys2Proof/Laws/State.lean ====
section
/-!
SUPPORT. One lemma per field per update of State, so that no later proof unfolds a record update; and
the same for Status.
-/
namespace Sys2Proof.Machine

section
variable (s : State) (v : Byte)
@[simp] theorem State.setA_a : (s.setA v).a = v := rfl
@[simp] theorem State.setA_x : (s.setA v).x = s.x := rfl
@[simp] theorem State.setA_y : (s.setA v).y = s.y := rfl
@[simp] theorem State.setA_sp : (s.setA v).sp = s.sp := rfl
@[simp] theorem State.setA_pc : (s.setA v).pc = s.pc := rfl
@[simp] theorem State.setA_p : (s.setA v).p = s.p := rfl
@[simp] theorem State.setA_run : (s.setA v).run = s.run := rfl
@[simp] theorem State.setA_attach : (s.setA v).attach = s.attach := rfl
@[simp] theorem State.setA_mirrors : (s.setA v).mirrors = s.mirrors := rfl
@[simp] theorem State.setA_mem : (s.setA v).mem = s.mem := rfl
@[simp] theorem State.setA_params : (s.setA v).params = s.params := rfl
@[simp] theorem State.setA_ext : (s.setA v).ext = s.ext := rfl
end

section
variable (s : State) (v : Byte)
@[simp] theorem State.setX_a : (s.setX v).a = s.a := rfl
@[simp] theorem State.setX_x : (s.setX v).x = v := rfl
@[simp] theorem State.setX_y : (s.setX v).y = s.y := rfl
@[simp] theorem State.setX_sp : (s.setX v).sp = s.sp := rfl
@[simp] theorem State.setX_pc : (s.setX v).pc = s.pc := rfl
@[simp] theorem State.setX_p : (s.setX v).p = s.p := rfl
@[simp] theorem State.setX_run : (s.setX v).run = s.run := rfl
@[simp] theorem State.setX_attach : (s.setX v).attach = s.attach := rfl
@[simp] theorem State.setX_mirrors : (s.setX v).mirrors = s.mirrors := rfl
@[simp] theorem State.setX_mem : (s.setX v).mem = s.mem := rfl
@[simp] theorem State.setX_params : (s.setX v).params = s.params := rfl
@[simp] theorem State.setX_ext : (s.setX v).ext = s.ext := rfl
end

section
variable (s : State) (v : Byte)
@[simp] theorem State.setY_a : (s.setY v).a = s.a := rfl
@[simp] theorem State.setY_x : (s.setY v).x = s.x := rfl
@[simp] theorem State.setY_y : (s.setY v).y = v := rfl
@[simp] theorem State.setY_sp : (s.setY v).sp = s.sp := rfl
@[simp] theorem State.setY_pc : (s.setY v).pc = s.pc := rfl
@[simp] theorem State.setY_p : (s.setY v).p = s.p := rfl
@[simp] theorem State.setY_run : (s.setY v).run = s.run := rfl
@[simp] theorem State.setY_attach : (s.setY v).attach = s.attach := rfl
@[simp] theorem State.setY_mirrors : (s.setY v).mirrors = s.mirrors := rfl
@[simp] theorem State.setY_mem : (s.setY v).mem = s.mem := rfl
@[simp] theorem State.setY_params : (s.setY v).params = s.params := rfl
@[simp] theorem State.setY_ext : (s.setY v).ext = s.ext := rfl
end

section
variable (s : State) (v : Byte)
@[simp] theorem State.setSp_a : (s.setSp v).a = s.a := rfl
@[simp] theorem State.setSp_x : (s.setSp v).x = s.x := rfl
@[simp] theorem State.setSp_y : (s.setSp v).y = s.y := rfl
@[simp] theorem State.setSp_sp : (s.setSp v).sp = v := rfl
@[simp] theorem State.setSp_pc : (s.setSp v).pc = s.pc := rfl
@[simp] theorem State.setSp_p : (s.setSp v).p = s.p := rfl
@[simp] theorem State.setSp_run : (s.setSp v).run = s.run := rfl
@[simp] theorem State.setSp_attach : (s.setSp v).attach = s.attach := rfl
@[simp] theorem State.setSp_mirrors : (s.setSp v).mirrors = s.mirrors := rfl
@[simp] theorem State.setSp_mem : (s.setSp v).mem = s.mem := rfl
@[simp] theorem State.setSp_params : (s.setSp v).params = s.params := rfl
@[simp] theorem State.setSp_ext : (s.setSp v).ext = s.ext := rfl
end

section
variable (s : State) (v : Word)
@[simp] theorem State.setPc_a : (s.setPc v).a = s.a := rfl
@[simp] theorem State.setPc_x : (s.setPc v).x = s.x := rfl
@[simp] theorem State.setPc_y : (s.setPc v).y = s.y := rfl
@[simp] theorem State.setPc_sp : (s.setPc v).sp = s.sp := rfl
@[simp] theorem State.setPc_pc : (s.setPc v).pc = v := rfl
@[simp] theorem State.setPc_p : (s.setPc v).p = s.p := rfl
@[simp] theorem State.setPc_run : (s.setPc v).run = s.run := rfl
@[simp] theorem State.setPc_attach : (s.setPc v).attach = s.attach := rfl
@[simp] theorem State.setPc_mirrors : (s.setPc v).mirrors = s.mirrors := rfl
@[simp] theorem State.setPc_mem : (s.setPc v).mem = s.mem := rfl
@[simp] theorem State.setPc_params : (s.setPc v).params = s.params := rfl
@[simp] theorem State.setPc_ext : (s.setPc v).ext = s.ext := rfl
end

section
variable (s : State) (v : Status)
@[simp] theorem State.setP_a : (s.setP v).a = s.a := rfl
@[simp] theorem State.setP_x : (s.setP v).x = s.x := rfl
@[simp] theorem State.setP_y : (s.setP v).y = s.y := rfl
@[simp] theorem State.setP_sp : (s.setP v).sp = s.sp := rfl
@[simp] theorem State.setP_pc : (s.setP v).pc = s.pc := rfl
@[simp] theorem State.setP_p : (s.setP v).p = v := rfl
@[simp] theorem State.setP_run : (s.setP v).run = s.run := rfl
@[simp] theorem State.setP_attach : (s.setP v).attach = s.attach := rfl
@[simp] theorem State.setP_mirrors : (s.setP v).mirrors = s.mirrors := rfl
@[simp] theorem State.setP_mem : (s.setP v).mem = s.mem := rfl
@[simp] theorem State.setP_params : (s.setP v).params = s.params := rfl
@[simp] theorem State.setP_ext : (s.setP v).ext = s.ext := rfl
end

section
variable (s : State) (v : RunState)
@[simp] theorem State.setRun_a : (s.setRun v).a = s.a := rfl
@[simp] theorem State.setRun_x : (s.setRun v).x = s.x := rfl
@[simp] theorem State.setRun_y : (s.setRun v).y = s.y := rfl
@[simp] theorem State.setRun_sp : (s.setRun v).sp = s.sp := rfl
@[simp] theorem State.setRun_pc : (s.setRun v).pc = s.pc := rfl
@[simp] theorem State.setRun_p : (s.setRun v).p = s.p := rfl
@[simp] theorem State.setRun_run : (s.setRun v).run = v := rfl
@[simp] theorem State.setRun_attach : (s.setRun v).attach = s.attach := rfl
@[simp] theorem State.setRun_mirrors : (s.setRun v).mirrors = s.mirrors := rfl
@[simp] theorem State.setRun_mem : (s.setRun v).mem = s.mem := rfl
@[simp] theorem State.setRun_params : (s.setRun v).params = s.params := rfl
@[simp] theorem State.setRun_ext : (s.setRun v).ext = s.ext := rfl
end

section
variable (s : State) (v : Memory)
@[simp] theorem State.setMem_a : (s.setMem v).a = s.a := rfl
@[simp] theorem State.setMem_x : (s.setMem v).x = s.x := rfl
@[simp] theorem State.setMem_y : (s.setMem v).y = s.y := rfl
@[simp] theorem State.setMem_sp : (s.setMem v).sp = s.sp := rfl
@[simp] theorem State.setMem_pc : (s.setMem v).pc = s.pc := rfl
@[simp] theorem State.setMem_p : (s.setMem v).p = s.p := rfl
@[simp] theorem State.setMem_run : (s.setMem v).run = s.run := rfl
@[simp] theorem State.setMem_attach : (s.setMem v).attach = s.attach := rfl
@[simp] theorem State.setMem_mirrors : (s.setMem v).mirrors = s.mirrors := rfl
@[simp] theorem State.setMem_mem : (s.setMem v).mem = v := rfl
@[simp] theorem State.setMem_params : (s.setMem v).params = s.params := rfl
@[simp] theorem State.setMem_ext : (s.setMem v).ext = s.ext := rfl
end

section
variable (s : State) (v : List ExtAccess)
@[simp] theorem State.setExt_a : (s.setExt v).a = s.a := rfl
@[simp] theorem State.setExt_x : (s.setExt v).x = s.x := rfl
@[simp] theorem State.setExt_y : (s.setExt v).y = s.y := rfl
@[simp] theorem State.setExt_sp : (s.setExt v).sp = s.sp := rfl
@[simp] theorem State.setExt_pc : (s.setExt v).pc = s.pc := rfl
@[simp] theorem State.setExt_p : (s.setExt v).p = s.p := rfl
@[simp] theorem State.setExt_run : (s.setExt v).run = s.run := rfl
@[simp] theorem State.setExt_attach : (s.setExt v).attach = s.attach := rfl
@[simp] theorem State.setExt_mirrors : (s.setExt v).mirrors = s.mirrors := rfl
@[simp] theorem State.setExt_mem : (s.setExt v).mem = s.mem := rfl
@[simp] theorem State.setExt_params : (s.setExt v).params = s.params := rfl
@[simp] theorem State.setExt_ext : (s.setExt v).ext = v := rfl
end

section
variable (s : State) (v : List Mirror)
@[simp] theorem State.setMirrors_a : (s.setMirrors v).a = s.a := rfl
@[simp] theorem State.setMirrors_x : (s.setMirrors v).x = s.x := rfl
@[simp] theorem State.setMirrors_y : (s.setMirrors v).y = s.y := rfl
@[simp] theorem State.setMirrors_sp : (s.setMirrors v).sp = s.sp := rfl
@[simp] theorem State.setMirrors_pc : (s.setMirrors v).pc = s.pc := rfl
@[simp] theorem State.setMirrors_p : (s.setMirrors v).p = s.p := rfl
@[simp] theorem State.setMirrors_run : (s.setMirrors v).run = s.run := rfl
@[simp] theorem State.setMirrors_attach : (s.setMirrors v).attach = s.attach := rfl
@[simp] theorem State.setMirrors_mirrors : (s.setMirrors v).mirrors = v := rfl
@[simp] theorem State.setMirrors_mem : (s.setMirrors v).mem = s.mem := rfl
@[simp] theorem State.setMirrors_params : (s.setMirrors v).params = s.params := rfl
@[simp] theorem State.setMirrors_ext : (s.setMirrors v).ext = s.ext := rfl
end

section
variable (p : Status) (w : Bool)
@[simp] theorem Status.setC_n : (p.setC w).n = p.n := rfl
@[simp] theorem Status.setC_v : (p.setC w).v = p.v := rfl
@[simp] theorem Status.setC_b : (p.setC w).b = p.b := rfl
@[simp] theorem Status.setC_d : (p.setC w).d = p.d := rfl
@[simp] theorem Status.setC_i : (p.setC w).i = p.i := rfl
@[simp] theorem Status.setC_z : (p.setC w).z = p.z := rfl
@[simp] theorem Status.setC_c : (p.setC w).c = w := rfl
end

section
variable (p : Status) (w : Bool)
@[simp] theorem Status.setI_n : (p.setI w).n = p.n := rfl
@[simp] theorem Status.setI_v : (p.setI w).v = p.v := rfl
@[simp] theorem Status.setI_b : (p.setI w).b = p.b := rfl
@[simp] theorem Status.setI_d : (p.setI w).d = p.d := rfl
@[simp] theorem Status.setI_i : (p.setI w).i = w := rfl
@[simp] theorem Status.setI_z : (p.setI w).z = p.z := rfl
@[simp] theorem Status.setI_c : (p.setI w).c = p.c := rfl
end

section
variable (p : Status) (w : Bool)
@[simp] theorem Status.setD_n : (p.setD w).n = p.n := rfl
@[simp] theorem Status.setD_v : (p.setD w).v = p.v := rfl
@[simp] theorem Status.setD_b : (p.setD w).b = p.b := rfl
@[simp] theorem Status.setD_d : (p.setD w).d = w := rfl
@[simp] theorem Status.setD_i : (p.setD w).i = p.i := rfl
@[simp] theorem Status.setD_z : (p.setD w).z = p.z := rfl
@[simp] theorem Status.setD_c : (p.setD w).c = p.c := rfl
end

section
variable (p : Status) (w : Bool)
@[simp] theorem Status.setV_n : (p.setV w).n = p.n := rfl
@[simp] theorem Status.setV_v : (p.setV w).v = w := rfl
@[simp] theorem Status.setV_b : (p.setV w).b = p.b := rfl
@[simp] theorem Status.setV_d : (p.setV w).d = p.d := rfl
@[simp] theorem Status.setV_i : (p.setV w).i = p.i := rfl
@[simp] theorem Status.setV_z : (p.setV w).z = p.z := rfl
@[simp] theorem Status.setV_c : (p.setV w).c = p.c := rfl
end

section
variable (p : Status) (w : Byte)
@[simp] theorem Status.setZN_n : (p.setZN w).n = w.getLsbD 7 := rfl
@[simp] theorem Status.setZN_v : (p.setZN w).v = p.v := rfl
@[simp] theorem Status.setZN_b : (p.setZN w).b = p.b := rfl
@[simp] theorem Status.setZN_d : (p.setZN w).d = p.d := rfl
@[simp] theorem Status.setZN_i : (p.setZN w).i = p.i := rfl
@[simp] theorem Status.setZN_z : (p.setZN w).z = decide (w = 0#8) := rfl
@[simp] theorem Status.setZN_c : (p.setZN w).c = p.c := rfl
end

end Sys2Proof.Machine
end

