-- ==== Sys2Proof/Laws/Ops.lean ====
section
/-!
SUPPORT. One lemma per shared operation: what it does when its accesses are attached, what it does when
one is not, and what it can change at all. Provers cite these and unfold nothing.
-/
namespace Sys2Proof.Machine

@[simp] theorem Acc.bind_ok {α β : Type} (v : α) (s : State) (f : α → State → Acc β) :
    (Acc.ok v s).bind f = f v s := rfl

@[simp] theorem Acc.bind_stop {α β : Type} (s : State) (f : α → State → Acc β) :
    (Acc.stop s : Acc α).bind f = .stop s := rfl

@[simp] theorem Acc.bind_ok_right {α : Type} (r : Acc α) : r.bind (fun v s => .ok v s) = r := by
  cases r <;> rfl

@[simp] theorem Acc.finish_ok (s : State) : Acc.finish (.ok () s) = .next s := rfl

@[simp] theorem Acc.finish_stop (s : State) : Acc.finish (.stop s) = .next s := rfl

/-! ### Reads and writes of the bus -/

theorem mirrorCovers_iff (m : Mirror) (a : Nat) : mirrorCovers m a = true ↔ m.lo ≤ a ∧ a < m.hi := by
  simp [mirrorCovers]

/-- An address that a run of mirror ranges does not cover is looked up in the rest of the table. -/
theorem resolve_cons (m : Mirror) (rest : List Mirror) (a : Word) :
    resolve (m :: rest) a =
      if m.lo ≤ a.toNat ∧ a.toNat < m.hi then BitVec.ofNat 16 (m.canon + (a.toNat - m.lo) % m.len)
      else resolve rest a := by
  simp only [resolve, mirrorCovers_iff, mirrorRedirect]

/-- An address that no run covers resolves to itself. -/
@[simp] theorem resolve_nil (a : Word) : resolve [] a = a := rfl

/-- `resolve_cons` for a run given by its fields. -/
theorem resolve_entry (lo canon len count : Nat) (rest : List Mirror) (a : Word) :
    resolve ({ lo := lo, canon := canon, len := len, count := count } :: rest) a =
      if lo ≤ a.toNat ∧ a.toNat < lo + len * count then
        BitVec.ofNat 16 (canon + (a.toNat - lo) % len)
      else resolve rest a := resolve_cons _ _ _

/-- A read of `a` leaves everything but the external targets' history. -/
theorem State.afterRead_eq (s : State) (a : Word) :
    s.afterRead a = s ∨
      ∃ e, e.dir = .read ∧ s.afterRead a = { s with ext := e :: s.ext } := by
  unfold State.afterRead
  split
  · exact .inr ⟨_, rfl, rfl⟩
  · exact .inl rfl
  · exact .inl rfl
  · exact .inl rfl

section
variable (s : State) (a : Word)

@[simp] theorem State.afterRead_a : (s.afterRead a).a = s.a := by
  rcases s.afterRead_eq a with h | ⟨e, _, h⟩ <;> rw [h]
@[simp] theorem State.afterRead_x : (s.afterRead a).x = s.x := by
  rcases s.afterRead_eq a with h | ⟨e, _, h⟩ <;> rw [h]
@[simp] theorem State.afterRead_y : (s.afterRead a).y = s.y := by
  rcases s.afterRead_eq a with h | ⟨e, _, h⟩ <;> rw [h]
@[simp] theorem State.afterRead_sp : (s.afterRead a).sp = s.sp := by
  rcases s.afterRead_eq a with h | ⟨e, _, h⟩ <;> rw [h]
@[simp] theorem State.afterRead_pc : (s.afterRead a).pc = s.pc := by
  rcases s.afterRead_eq a with h | ⟨e, _, h⟩ <;> rw [h]
@[simp] theorem State.afterRead_p : (s.afterRead a).p = s.p := by
  rcases s.afterRead_eq a with h | ⟨e, _, h⟩ <;> rw [h]
@[simp] theorem State.afterRead_run : (s.afterRead a).run = s.run := by
  rcases s.afterRead_eq a with h | ⟨e, _, h⟩ <;> rw [h]
@[simp] theorem State.afterRead_attach : (s.afterRead a).attach = s.attach := by
  rcases s.afterRead_eq a with h | ⟨e, _, h⟩ <;> rw [h]
@[simp] theorem State.afterRead_mirrors : (s.afterRead a).mirrors = s.mirrors := by
  rcases s.afterRead_eq a with h | ⟨e, _, h⟩ <;> rw [h]
@[simp] theorem State.afterRead_mem : (s.afterRead a).mem = s.mem := by
  rcases s.afterRead_eq a with h | ⟨e, _, h⟩ <;> rw [h]
@[simp] theorem State.afterRead_params : (s.afterRead a).params = s.params := by
  rcases s.afterRead_eq a with h | ⟨e, _, h⟩ <;> rw [h]
@[simp] theorem State.afterRead_canon (b : Word) : (s.afterRead a).canon b = s.canon b := by
  unfold State.canon; rw [State.afterRead_mirrors]
@[simp] theorem State.afterRead_target (b : Word) : (s.afterRead a).target b = s.target b := by
  unfold State.target; rw [State.afterRead_attach, State.afterRead_canon]
theorem State.afterRead_attached (b : Word) : (s.afterRead a).Attached b ↔ s.Attached b := by
  unfold State.Attached; rw [State.afterRead_target]
@[simp] theorem State.afterRead_cell (b : Word) : (s.afterRead a).cell b = s.cell b := by
  unfold State.cell; rw [State.afterRead_mem, State.afterRead_canon]
@[simp] theorem State.afterRead_highAddr (b : Word) :
    (s.afterRead a).highAddr b = s.highAddr b := by
  unfold State.highAddr; rw [State.afterRead_params]
@[simp] theorem State.afterRead_zeroPage (b r : Byte) :
    (s.afterRead a).zeroPage b r = s.zeroPage b r := by
  unfold State.zeroPage; rw [State.afterRead_params]
@[simp] theorem State.afterReadWord_y : (s.afterReadWord a).y = s.y := by
  simp [State.afterReadWord]
@[simp] theorem State.afterReadWord_target (b : Word) :
    (s.afterReadWord a).target b = s.target b := by
  simp [State.afterReadWord]
end

/-- A write to `a` leaves everything but storage and the external targets' history. -/
theorem State.afterWrite_eq (s : State) (a : Word) (v : Byte) :
    ∃ m h, s.afterWrite a v = { s with mem := m, ext := h } := by
  unfold State.afterWrite
  split
  · exact ⟨s.mem, _, rfl⟩
  · exact ⟨_, s.ext, rfl⟩
  · exact ⟨_, s.ext, rfl⟩
  · exact ⟨s.mem, s.ext, rfl⟩

/-- `MemRead` of an attached address (R59). -/
theorem memRead_attached {s : State} {a : Word} (h : s.Attached a) :
    memRead a s = .ok (s.byteAt a) (s.afterRead a) := by
  obtain ⟨t, ht⟩ := Option.isSome_iff_exists.1 h
  cases t <;> simp [memRead, targetRead, State.byteAt, State.afterRead, State.cell, ht, State.setExt]

/-- `MemRead` of an address without a target (R59, R271). -/
theorem memRead_unattached {s : State} {a : Word} (h : ¬ s.Attached a) :
    memRead a s = .stop (s.takeFault (.busFault a .read)) := by
  have ht : s.target a = none := by simpa using h
  simp [memRead, ht]

/-- `MemWrite` of an attached address (R60). -/
theorem memWrite_attached {s : State} {a : Word} (v : Byte) (h : s.Attached a) :
    memWrite a v s = .ok () (s.afterWrite a v) := by
  obtain ⟨t, ht⟩ := Option.isSome_iff_exists.1 h
  cases t <;> simp [memWrite, targetWrite, State.afterWrite, ht, State.setExt, State.setMem]

/-- `MemWrite` of an address without a target (R60, R271). -/
theorem memWrite_unattached {s : State} {a : Word} (v : Byte) (h : ¬ s.Attached a) :
    memWrite a v s = .stop (s.takeFault (.busFault a .write)) := by
  have ht : s.target a = none := by simpa using h
  simp [memWrite, ht]

/-! ### `read16` -/

/-- `a & 0xFF00 | (a + 1) & 0xFF`, or `a + 1`, as arithmetic (R61). -/
theorem highByteAddr_eq (s : State) (a : Word) :
    highByteAddr s.params.read16PageWrap a = s.highAddr a := by
  unfold highByteAddr State.highAddr
  split
  · apply BitVec.eq_of_toNat_eq
    have h2 : ∀ b : Word, ((a &&& 0xFF00#16) ||| (b &&& 0x00FF#16)) =
        ((a >>> 8).setWidth 8 ++ b.setWidth 8 : BitVec (8 + 8)) := by
      intro b
      apply BitVec.eq_of_getLsbD_eq
      intro i hi
      rw [BitVec.getLsbD_append]
      interval_cases i <;> simp
    rw [h2, BitVec.toNat_append, BitVec.toNat_ofNat]
    have := a.isLt
    simp only [BitVec.toNat_setWidth, BitVec.toNat_ushiftRight, BitVec.toNat_add]
    rw [← Nat.shiftLeft_add_eq_or_of_lt (Nat.mod_lt _ (by decide)), Nat.shiftLeft_eq,
      Nat.shiftRight_eq_div_pow]
    norm_num
    omega
  · apply BitVec.eq_of_toNat_eq
    simp

/-- `hi:lo` as arithmetic (R7). -/
theorem hiLo_eq (hi lo : Byte) : hiLo hi lo = BitVec.ofNat 16 (hi.toNat * 256 + lo.toNat) := by
  apply BitVec.eq_of_toNat_eq
  have h1 := hi.isLt
  have h2 := lo.isLt
  unfold hiLo
  rw [BitVec.toNat_append, ← Nat.shiftLeft_add_eq_or_of_lt h2, Nat.shiftLeft_eq, BitVec.toNat_ofNat]
  omega

/-- `read16` with both bytes attached (R61). -/
theorem read16_attached {s : State} {a : Word} (h : s.WordAttached a) :
    read16 a s = .ok (s.wordAt a) (s.afterReadWord a) := by
  have h2 := (s.afterRead_attached a _).2 h.2
  simp only [read16, memRead_attached h.1, Acc.bind_ok, highByteAddr_eq,
    memRead_attached h2, hiLo_eq]
  rfl

/-- `read16` with a byte unattached (R61, R133). -/
theorem read16_unattached {s : State} {a : Word} (h : ¬ s.WordAttached a) :
    read16 a s = .stop (s.wordFault a) := by
  unfold State.wordFault
  by_cases h1 : s.Attached a
  · have h2 : ¬ (s.afterRead a).Attached (s.highAddr a) := fun h2 =>
      h ⟨h1, (s.afterRead_attached a _).1 h2⟩
    rw [if_pos h1, read16, memRead_attached h1, Acc.bind_ok, highByteAddr_eq, memRead_unattached h2]
    rfl
  · rw [if_neg h1, read16, memRead_unattached h1]
    rfl

/-! ### Operands -/

theorem zeroExtend16_eq (b : Byte) : zeroExtend16 b = zeroPageOf b := by
  apply BitVec.eq_of_toNat_eq
  have := b.isLt
  simp [zeroExtend16, zeroPageOf]

theorem zpIndex_eq (s : State) (b r : Byte) : zpIndex s.params.zpIndexWrap b r = s.zeroPage b r := by
  unfold zpIndex State.zeroPage
  have := b.isLt
  have := r.isLt
  split <;> apply BitVec.eq_of_toNat_eq
  · simp only [zeroExtend16, BitVec.toNat_setWidth, BitVec.toNat_add, BitVec.toNat_ofNat]
  · simp only [zeroExtend16, BitVec.toNat_setWidth, BitVec.toNat_add, BitVec.toNat_ofNat]
    omega

theorem addIndex_eq (w : Word) (b : Byte) :
    w + zeroExtend16 b = BitVec.ofNat 16 (w.toNat + b.toNat) := by
  apply BitVec.eq_of_toNat_eq
  have := b.isLt
  simp only [zeroExtend16, BitVec.toNat_setWidth, BitVec.toNat_add, BitVec.toNat_ofNat]
  omega

/-- `EffectiveAddress` with its pointer bytes attached (R121–R129). -/
theorem effectiveAddress_attached {m : Mode} {s : State} (h : m.PointerAttached s) :
    effectiveAddress m s = .ok (m.addr s) (m.after s) := by
  cases m with
  | zp nn => simp [effectiveAddress, Mode.addr, Mode.after, Mode.pointer, zeroExtend16_eq]
  | zpx nn => simp [effectiveAddress, Mode.addr, Mode.after, Mode.pointer, zpIndex_eq]
  | zpy nn => simp [effectiveAddress, Mode.addr, Mode.after, Mode.pointer, zpIndex_eq]
  | abs ww => rfl
  | absx ww => simp [effectiveAddress, Mode.addr, Mode.after, Mode.pointer, addIndex_eq]
  | absy ww => simp [effectiveAddress, Mode.addr, Mode.after, Mode.pointer, addIndex_eq]
  | ind ww => exact read16_attached (h ww rfl)
  | indx nn =>
    simp only [effectiveAddress, zpIndex_eq]
    exact read16_attached (h _ rfl)
  | indy nn =>
    have hp : s.WordAttached (zeroPageOf nn) := h _ rfl
    simp only [effectiveAddress, zeroExtend16_eq nn, read16_attached hp, Acc.bind_ok,
      State.afterReadWord_y, addIndex_eq]
    rfl

/-- What a failing read through a mode leaves, the mode's pointer being unattached. -/
theorem Mode.readFault_of_pointer {m : Mode} {s : State} {p : Word} (hp : m.pointer s = some p)
    (h : ¬ s.WordAttached p) : m.readFault s = s.wordFault p := by
  simp only [Mode.readFault, hp, if_neg h]

/-- What a failing read through a mode leaves, the mode's pointer being attached if it has one. -/
theorem Mode.readFault_of_attached {m : Mode} {s : State} (h : m.PointerAttached s) :
    m.readFault s = busFaulted (m.after s) (m.addr s) .read := by
  unfold Mode.readFault Mode.after
  cases hp : m.pointer s with
  | none => rfl
  | some p => simp only [if_pos (h p hp)]

/-- A mode whose pointer is unattached has one. -/
theorem Mode.pointer_of_unattached {m : Mode} {s : State} (h : ¬ m.PointerAttached s) :
    ∃ p, m.pointer s = some p ∧ ¬ s.WordAttached p := by
  simpa [Mode.PointerAttached] using h

/-- `EffectiveAddress` with a pointer byte unattached (R127–R129, R133). -/
theorem effectiveAddress_unattached {m : Mode} {s : State} (h : ¬ m.PointerAttached s) :
    effectiveAddress m s = .stop (m.readFault s) := by
  obtain ⟨p, hp, hw⟩ := Mode.pointer_of_unattached h
  rw [Mode.readFault_of_pointer hp hw]
  cases m <;> cases hp
  · exact read16_unattached hw
  · simp only [effectiveAddress, zpIndex_eq, read16_unattached hw]
  · simp only [effectiveAddress, zeroExtend16_eq, read16_unattached hw, Acc.bind_stop]

/-- The pointer reads of a mode leave the state, or the state with one or two more reads in the external
targets' history. -/
theorem Mode.after_cases (m : Mode) (s : State) :
    m.after s = s ∨ ∃ p q, m.after s = (s.afterRead p).afterRead q := by
  unfold Mode.after
  split
  · exact .inl rfl
  · exact .inr ⟨_, _, rfl⟩

@[simp] theorem Mode.after_target (m : Mode) (s : State) (b : Word) :
    (m.after s).target b = s.target b := by
  rcases m.after_cases s with h | ⟨p, q, h⟩
  · rw [h]
  · simp [h]

theorem Mode.after_attached (m : Mode) (s : State) (b : Word) :
    (m.after s).Attached b ↔ s.Attached b := by
  unfold State.Attached; rw [Mode.after_target]

/-- `ReadOperand` with everything it needs attached (R131). -/
theorem readOperand_reachable {src : Source} {s : State} (h : src.Reachable s) :
    readOperand src s = .ok (src.value s) (src.after s) := by
  cases src with
  | imm nn => rfl
  | mem m =>
    have h2 := (m.after_attached s _).2 h.2
    simp only [readOperand, effectiveAddress_attached h.1, Acc.bind_ok, memRead_attached h2]
    rfl

/-- Whatever comes of the byte read at EA, a read with something it needs unattached stops there, in
the one state the spec gives (R131, R133). -/
theorem readCell_unreachable {β : Type} {m : Mode} {s : State} (h : ¬ m.Reachable s)
    (f : Word → Byte → State → Acc β) :
    ((effectiveAddress m s).bind fun ea t => (memRead ea t).bind (f ea)) =
      .stop (m.readFault s) := by
  by_cases h1 : m.PointerAttached s
  · have h2 : ¬ (m.after s).Attached (m.addr s) := fun h2 =>
      h ⟨h1, (m.after_attached s _).1 h2⟩
    rw [effectiveAddress_attached h1, Acc.bind_ok, memRead_unattached h2, Acc.bind_stop,
      Mode.readFault_of_attached h1]
    rfl
  · rw [effectiveAddress_unattached h1, Acc.bind_stop]

/-- `ReadOperand` with something it needs unattached (R131, R133). -/
theorem readOperand_unreachable {src : Source} {s : State} (h : ¬ src.Reachable s) :
    readOperand src s = .stop (src.readFault s) := by
  cases src with
  | imm nn => exact absurd trivial h
  | mem m =>
    simpa only [Acc.bind_ok_right, readOperand, Source.readFault] using readCell_unreachable h fun _ v t => Acc.ok v t

/-- The read-modify-write access with everything it needs attached: one read and one write of EA
(R132). -/
theorem modifyCell_reachable {m : Mode} {s : State} (f : Byte → Byte) (h : m.Reachable s) :
    modifyCell f m s = .ok ((m.after s).byteAt (m.addr s))
      (((m.after s).afterRead (m.addr s)).afterWrite (m.addr s)
        (f ((m.after s).byteAt (m.addr s)))) := by
  have h2 := (m.after_attached s _).2 h.2
  simp only [modifyCell, effectiveAddress_attached h.1, Acc.bind_ok, memRead_attached h2,
    memWrite_attached _ ((State.afterRead_attached _ _ _).2 h2)]

/-- The read-modify-write access with something it needs unattached: it ends at its read, since its
write is to the address read (R132, R133). -/
theorem modifyCell_unreachable {m : Mode} {s : State} (f : Byte → Byte) (h : ¬ m.Reachable s) :
    modifyCell f m s = .stop (m.readFault s) :=
  readCell_unreachable h fun ea v t => (memWrite ea (f v) t).bind fun _ u => .ok v u

/-! ### The stack -/

theorem stackAddr_eq (s : State) : stackAddr s.sp = s.stackSlot := by
  simp [stackAddr, State.stackSlot, hiLo_eq]

theorem sp_sub_one (b : Byte) : b - 1#8 = BitVec.ofNat 8 (b.toNat + 255) := by
  apply BitVec.eq_of_toNat_eq
  have := b.isLt
  simp only [BitVec.toNat_sub, BitVec.toNat_ofNat]
  omega

theorem sp_add_one (b : Byte) : b + 1#8 = BitVec.ofNat 8 (b.toNat + 1) := by
  apply BitVec.eq_of_toNat_eq
  simp only [BitVec.toNat_add, BitVec.toNat_ofNat]

/-- `Push` with its slot attached (R220). -/
theorem push_attached {s : State} (v : Byte) (h : s.PushAttached) :
    push v s = .ok () (s.pushed v) := by
  unfold push
  rw [stackAddr_eq, memWrite_attached v h, Acc.bind_ok]
  obtain ⟨m, k, e⟩ := s.afterWrite_eq s.stackSlot v
  simp only [State.pushed, e, State.setSp, sp_sub_one]

/-- `Push` with its slot unattached: nothing is pushed and SP stays (R220, R133). -/
theorem push_unattached {s : State} (v : Byte) (h : ¬ s.PushAttached) :
    push v s = .stop (s.takeFault (.busFault s.stackSlot .write)) := by
  unfold push
  rw [stackAddr_eq, memWrite_unattached v h, Acc.bind_stop]

theorem pull_eq (s : State) : pull s = memRead s.spUp.stackSlot s.spUp := by
  unfold pull
  have e : s.setSp (s.sp + 1#8) = s.spUp := by simp [State.setSp, State.spUp, sp_add_one]
  have e2 : stackAddr (s.sp + 1#8) = s.spUp.stackSlot := by
    rw [← stackAddr_eq]; simp [State.spUp, sp_add_one]
  rw [e, e2]

@[simp] theorem State.spUp_target (s : State) (a : Word) : s.spUp.target a = s.target a := rfl

/-- `Pull` with its slot attached (R221). -/
theorem pull_attached {s : State} (h : s.PullAttached) :
    pull s = .ok s.pullByte s.pulled := by
  rw [pull_eq, memRead_attached (s := s.spUp) h]
  rfl

/-- `Pull` with its slot unattached: SP has moved (R221, R133). -/
theorem pull_unattached {s : State} (h : ¬ s.PullAttached) :
    pull s = .stop (s.spUp.takeFault (.busFault s.spUp.stackSlot .read)) := by
  rw [pull_eq, memRead_unattached (s := s.spUp) h]

end Sys2Proof.Machine
end

