-- ==== Sys2Proof/Laws/Frames.lean ====
section
/-!
SUPPORT. What each shared operation can change at all, whether it completes or raises: said once, by the
state it ends in. `Touches L` bounds what happens to everything but the registers, the bytes stored to
being those of the addresses of `L`.
-/
namespace Sys2Proof.Machine

/-- The state a part of a step ends in, whether the step goes on or not. -/
def Acc.state {α : Type} (r : Acc α) : State :=
  match r with
  | .ok _ s => s
  | .stop s => s

theorem Acc.finish_eq (r : Acc Unit) : r.finish = .next r.state := by
  cases r <;> rfl

/-- An external target that owns an address is one of those attached. -/
theorem owner_mem {table : List Attachment} {c : Word} {t : Target} (h : owner table c = some t) :
    ∃ q ∈ table, q.target = t := by
  induction table with
  | nil => cases h
  | cons q rest ih =>
    unfold owner at h
    split at h
    · cases h; exact ⟨q, by simp, rfl⟩
    · obtain ⟨x, hx, e⟩ := ih h
      exact ⟨x, List.mem_cons_of_mem _ hx, e⟩

/-- From `s` to `t` the bus tables and the parameters are as they were; the run state too, or it is
Faulted at an unattached address; the external targets' history has grown, if there are any; no byte
has changed but behind the addresses of `L`; and storage has kept its form. -/
structure Touches (L : List Word) (s t : State) : Prop where
  attach : t.attach = s.attach
  mirrors : t.mirrors = s.mirrors
  params : t.params = s.params
  run : t.run = s.run ∨ ∃ a d, ¬ s.Attached a ∧ t.run = .faulted (.busFault a d)
  grows : ∃ h, t.ext = h ++ s.ext
  quiet : (∀ q ∈ s.attach, ∀ id, q.target ≠ .external id) → t.ext = s.ext
  bytes : ∀ a, (∀ b ∈ L, s.canon a ≠ s.canon b) → t.cell a = s.cell a
  wf : s.mem.wf → t.mem.wf
  owned : s.StorageOwned → t.StorageOwned

section
variable {L : List Word} {s t u : State}

theorem Touches.canon (h : Touches L s t) (a : Word) : t.canon a = s.canon a := by
  unfold State.canon; rw [h.mirrors]

theorem Touches.target (h : Touches L s t) (a : Word) : t.target a = s.target a := by
  unfold State.target; rw [h.attach, h.canon]

theorem Touches.attached (h : Touches L s t) (a : Word) : t.Attached a ↔ s.Attached a := by
  unfold State.Attached; rw [h.target]

theorem Touches.refl (L : List Word) (s : State) : Touches L s s where
  attach := rfl
  mirrors := rfl
  params := rfl
  run := .inl rfl
  grows := ⟨[], rfl⟩
  quiet := fun _ => rfl
  bytes := fun _ _ => rfl
  wf := id
  owned := id

/-- A state that differs from another in its registers alone. -/
theorem Touches.of_eq (h1 : t.attach = s.attach) (h2 : t.mirrors = s.mirrors)
    (h3 : t.params = s.params) (h4 : t.run = s.run) (h5 : t.ext = s.ext) (h6 : t.mem = s.mem) :
    Touches L s t where
  attach := h1
  mirrors := h2
  params := h3
  run := .inl h4
  grows := ⟨[], h5⟩
  quiet := fun _ => h5
  bytes := fun a _ => by unfold State.cell State.canon; rw [h6, h2]
  wf := fun h => h6 ▸ h
  owned := fun h => by unfold State.StorageOwned; rw [h6, h1]; exact h

theorem Touches.trans (h : Touches L s t) (k : Touches L t u) : Touches L s u where
  attach := k.attach.trans h.attach
  mirrors := k.mirrors.trans h.mirrors
  params := k.params.trans h.params
  run := by
    rcases k.run with e | ⟨a, d, ha, e⟩
    · rw [e]; exact h.run
    · exact .inr ⟨a, d, fun hs => ha ((h.attached a).2 hs), e⟩
  grows := by
    obtain ⟨x, ex⟩ := h.grows
    obtain ⟨y, ey⟩ := k.grows
    exact ⟨y ++ x, by rw [ey, ex, List.append_assoc]⟩
  quiet := fun q => (k.quiet (h.attach ▸ q)).trans (h.quiet q)
  bytes := fun a ha => by
    rw [k.bytes a fun b hb => by rw [h.canon, h.canon]; exact ha b hb, h.bytes a ha]
  wf := fun q => k.wf (h.wf q)
  owned := fun q => k.owned (h.owned q)

theorem Touches.mono {M : List Word} (h : Touches L s t) (hL : ∀ a ∈ L, a ∈ M) : Touches M s t :=
  { h with bytes := fun a ha => h.bytes a fun b hb => ha b (hL b hb) }

end

/-- The general registers, PC and P are as they were. -/
structure SameRegs (s t : State) : Prop where
  a : t.a = s.a
  x : t.x = s.x
  y : t.y = s.y
  pc : t.pc = s.pc
  p : t.p = s.p

theorem SameRegs.refl (s : State) : SameRegs s s := ⟨rfl, rfl, rfl, rfl, rfl⟩

theorem SameRegs.trans {s t u : State} (h : SameRegs s t) (k : SameRegs t u) : SameRegs s u :=
  ⟨k.a.trans h.a, k.x.trans h.x, k.y.trans h.y, k.pc.trans h.pc, k.p.trans h.p⟩

/-- Accesses alone: no register has changed. -/
structure OnlyAccess (L : List Word) (s t : State) : Prop where
  touches : Touches L s t
  regs : SameRegs s t
  sp : t.sp = s.sp

/-- Stack accesses alone: no register but SP has changed. -/
structure OnlyStack (L : List Word) (s t : State) : Prop where
  touches : Touches L s t
  regs : SameRegs s t

section
variable {L : List Word} {s t u : State}

theorem OnlyAccess.refl (L : List Word) (s : State) : OnlyAccess L s s :=
  ⟨Touches.refl L s, SameRegs.refl s, rfl⟩

theorem OnlyAccess.trans (h : OnlyAccess L s t) (k : OnlyAccess L t u) : OnlyAccess L s u :=
  ⟨h.touches.trans k.touches, h.regs.trans k.regs, k.sp.trans h.sp⟩

theorem OnlyAccess.mono {M : List Word} (h : OnlyAccess L s t) (hL : ∀ a ∈ L, a ∈ M) :
    OnlyAccess M s t := ⟨h.touches.mono hL, h.regs, h.sp⟩

/-- Reads leave every byte as it was. -/
theorem OnlyAccess.reads (h : OnlyAccess [] s t) : OnlyAccess L s t := h.mono (by simp)

theorem OnlyAccess.stack (h : OnlyAccess L s t) : OnlyStack L s t := ⟨h.touches, h.regs⟩

theorem OnlyStack.trans (h : OnlyStack L s t) (k : OnlyStack L t u) : OnlyStack L s u :=
  ⟨h.touches.trans k.touches, h.regs.trans k.regs⟩

theorem OnlyStack.mono {M : List Word} (h : OnlyStack L s t) (hL : ∀ a ∈ L, a ∈ M) :
    OnlyStack M s t := ⟨h.touches.mono hL, h.regs⟩

/-- SP alone has moved. -/
theorem OnlyStack.setSp (L : List Word) (s : State) (v : Byte) : OnlyStack L s (s.setSp v) :=
  ⟨Touches.of_eq rfl rfl rfl rfl rfl rfl, ⟨rfl, rfl, rfl, rfl, rfl⟩⟩

end

/-- A sequence stays within what its parts may change. -/
theorem Acc.state_bind {α β : Type} {R : State → State → Prop} {r : Acc α} {f : α → State → Acc β}
    {s : State} (trans : ∀ {t u : State}, R s t → R t u → R s u) (hr : R s r.state)
    (hf : ∀ v t, r = .ok v t → R t (f v t).state) : R s (r.bind f).state := by
  cases r with
  | ok v t => exact trans hr (hf v t rfl)
  | stop t => exact hr

/-- A BusFault taken changes the run state alone. -/
theorem takeFault_only {s : State} {a : Word} (d : Dir) (h : ¬ s.Attached a) (L : List Word) :
    OnlyAccess L s (s.takeFault (.busFault a d)) :=
  ⟨{ Touches.refl L s with run := .inr ⟨a, d, h, rfl⟩, owned := id }, ⟨rfl, rfl, rfl, rfl, rfl⟩, rfl⟩

theorem memRead_only (a : Word) (s : State) : OnlyAccess [] s (memRead a s).state := by
  by_cases h : s.Attached a
  · rw [memRead_attached h]
    refine ⟨?_, ⟨by simp [Acc.state], by simp [Acc.state], by simp [Acc.state], by simp [Acc.state],
      by simp [Acc.state]⟩, by simp [Acc.state]⟩
    show Touches [] s (s.afterRead a)
    unfold State.afterRead
    split
    · rename_i id ht
      obtain ⟨q, hq, e⟩ := owner_mem ht
      exact { Touches.refl [] s with
        grows := ⟨[_], rfl⟩, quiet := fun k => absurd e (k q hq id), owned := fun ho => ho }
    · exact Touches.refl [] s
    · exact Touches.refl [] s
    · exact Touches.refl [] s
  · rw [memRead_unattached h]
    exact takeFault_only .read h []

/-- A store into the block that owns the address. -/
theorem Touches.store {s : State} {a : Word} (v : Byte)
    (h : s.target a = some .ram ∨ s.target a = some .io) :
    Touches [a] s (s.setMem (s.mem.write (s.canon a).toNat v)) :=
  { Touches.refl [a] s with
    bytes := fun b hb => by
      show Memory.read (s.mem.write _ v) _ = _
      rw [Memory.read_write, if_neg]
      · rfl
      · exact fun e => hb a (by simp) (BitVec.eq_of_toNat_eq e.symm)
    wf := fun hw => Memory.write_wf hw (s.canon a).isLt v
    owned := fun ho c hc => by
      rcases Memory.mem_write hc with rfl | hc
      · simpa [State.target] using h
      · exact ho c hc }

theorem memWrite_only (a : Word) (v : Byte) (s : State) :
    OnlyAccess [a] s (memWrite a v s).state := by
  unfold memWrite
  cases ht : s.target a with
  | none => exact takeFault_only .write (by simp [ht]) [a]
  | some t =>
    cases t with
    | ram => exact ⟨Touches.store v (.inl ht), ⟨rfl, rfl, rfl, rfl, rfl⟩, rfl⟩
    | io => exact ⟨Touches.store v (.inr ht), ⟨rfl, rfl, rfl, rfl, rfl⟩, rfl⟩
    | external id =>
      obtain ⟨q, hq, e⟩ := owner_mem ht
      exact ⟨{ Touches.refl [a] s with
        grows := ⟨[_], rfl⟩, quiet := fun k => absurd e (k q hq id), owned := fun ho => ho },
        ⟨rfl, rfl, rfl, rfl, rfl⟩, rfl⟩

theorem read16_only (a : Word) (s : State) : OnlyAccess [] s (read16 a s).state := by
  unfold read16
  refine Acc.state_bind OnlyAccess.trans (memRead_only a s) fun lo t _ => ?_
  exact Acc.state_bind OnlyAccess.trans (memRead_only _ t) fun hi u _ => OnlyAccess.refl _ u

theorem effectiveAddress_only (m : Mode) (s : State) :
    OnlyAccess [] s (effectiveAddress m s).state := by
  cases m with
  | zp nn => exact OnlyAccess.refl _ s
  | zpx nn => exact OnlyAccess.refl _ s
  | zpy nn => exact OnlyAccess.refl _ s
  | abs ww => exact OnlyAccess.refl _ s
  | absx ww => exact OnlyAccess.refl _ s
  | absy ww => exact OnlyAccess.refl _ s
  | ind ww => exact read16_only ww s
  | indx nn => exact read16_only _ s
  | indy nn =>
    exact Acc.state_bind OnlyAccess.trans (read16_only _ s) fun w t _ => OnlyAccess.refl _ t

theorem readOperand_only (src : Source) (s : State) :
    OnlyAccess [] s (readOperand src s).state := by
  cases src with
  | imm nn => exact OnlyAccess.refl _ s
  | mem m =>
    exact Acc.state_bind OnlyAccess.trans (effectiveAddress_only m s) fun ea t _ => memRead_only ea t

/-- The address the mode gives, if its pointer reads complete, as a list. -/
def Mode.cells (m : Mode) (s : State) : List Word :=
  match effectiveAddress m s with
  | .ok ea _ => [ea]
  | .stop _ => []

theorem Mode.cells_ok {m : Mode} {s t : State} {ea : Word} (h : effectiveAddress m s = .ok ea t) :
    m.cells s = [ea] := by
  unfold Mode.cells; rw [h]

theorem modifyCell_only (f : Byte → Byte) (m : Mode) (s : State) :
    OnlyAccess (m.cells s) s (modifyCell f m s).state := by
  unfold modifyCell
  refine Acc.state_bind OnlyAccess.trans (effectiveAddress_only m s).reads fun ea t h => ?_
  rw [Mode.cells_ok h]
  refine Acc.state_bind OnlyAccess.trans (memRead_only ea t).reads fun v u _ => ?_
  exact Acc.state_bind OnlyAccess.trans (memWrite_only ea (f v) u) fun _ w _ => OnlyAccess.refl _ w

theorem push_only (v : Byte) (s : State) : OnlyStack [stackAddr s.sp] s (push v s).state := by
  unfold push
  refine Acc.state_bind OnlyStack.trans (memWrite_only _ v s).stack fun _ t _ => ?_
  exact OnlyStack.setSp _ _ _

/-- A push that completes moves SP down by one. -/
theorem push_sp {v : Byte} {s t : State} {w : Unit} (h : push v s = .ok w t) : t.sp = s.sp - 1#8 := by
  unfold push at h
  have e := (memWrite_only (stackAddr s.sp) v s).sp
  cases hm : memWrite (stackAddr s.sp) v s with
  | stop u => rw [hm] at h; cases h
  | ok w u =>
    rw [hm] at h e
    cases h
    exact congrArg (· - 1#8) e

theorem pull_only (s : State) : OnlyStack [] s (pull s).state := by
  unfold pull
  exact (OnlyStack.setSp [] s _).trans (memRead_only _ _).stack

theorem pushWord_only (w : Word) (s : State) :
    OnlyStack [stackAddr s.sp, stackAddr (s.sp - 1#8)] s (pushWord w s).state := by
  refine Acc.state_bind OnlyStack.trans ((push_only _ s).mono (by simp)) fun _ t h => ?_
  have e := push_sp h
  exact (push_only _ t).mono (by rw [e]; simp)

theorem pullWord_only (s : State) : OnlyStack [] s (pullWord s).state := by
  unfold pullWord
  refine Acc.state_bind OnlyStack.trans (pull_only s) fun lo t _ => ?_
  exact Acc.state_bind OnlyStack.trans (pull_only t) fun hi u _ => (OnlyAccess.refl _ u).stack

end Sys2Proof.Machine
end

