-- ==== Sys2Proof/Laws/Fetch.lean ====
section
/-!
SUPPORT. Fetch: what `fetchByte` does where its address is attached and where it is not, what a fetch can
change, and every next state of `step`, as the state the fetches leave and what comes after them.
-/
namespace Sys2Proof.Machine

theorem add_one_eq (w : Word) : w + 1#16 = BitVec.ofNat 16 (w.toNat + 1) := by
  apply BitVec.eq_of_toNat_eq
  simp only [BitVec.toNat_add, BitVec.toNat_ofNat]

/-- `FetchByte` at an attached address (R114). -/
theorem fetchByte_attached {s : State} (h : s.Attached s.pc) :
    fetchByte s = .ok (s.byteAt s.pc)
      { s.afterRead s.pc with pc := BitVec.ofNat 16 (s.pc.toNat + 1) } := by
  simp only [fetchByte, memRead_attached h, Acc.bind_ok, State.setPc, State.afterRead_pc, add_one_eq]

/-- `FetchByte` at an unattached address: PC stays at the byte (R114, R133). -/
theorem fetchByte_unattached {s : State} (h : ¬ s.Attached s.pc) :
    fetchByte s = .stop (s.takeFault (.busFault s.pc .read)) := by
  simp only [fetchByte, memRead_unattached h, Acc.bind_stop]

/-- Fetches alone: nothing but PC has changed among the registers. -/
structure OnlyFetch (s t : State) : Prop where
  touches : Touches [] s t
  a : t.a = s.a
  x : t.x = s.x
  y : t.y = s.y
  sp : t.sp = s.sp
  p : t.p = s.p

theorem OnlyFetch.refl (s : State) : OnlyFetch s s := ⟨Touches.refl _ s, rfl, rfl, rfl, rfl, rfl⟩

theorem OnlyFetch.trans {s t u : State} (h : OnlyFetch s t) (k : OnlyFetch t u) : OnlyFetch s u :=
  ⟨h.touches.trans k.touches, k.a.trans h.a, k.x.trans h.x, k.y.trans h.y, k.sp.trans h.sp,
    k.p.trans h.p⟩

theorem fetchByte_only (s : State) : OnlyFetch s (fetchByte s).state := by
  refine Acc.state_bind OnlyFetch.trans ?_ fun b t _ => ?_
  · have h := memRead_only s.pc s
    exact ⟨h.touches, h.regs.a, h.regs.x, h.regs.y, h.sp, h.regs.p⟩
  · exact ⟨Touches.of_eq rfl rfl rfl rfl rfl rfl, rfl, rfl, rfl, rfl, rfl⟩

theorem fetchWord_only (s : State) : OnlyFetch s (fetchWord s).state := by
  refine Acc.state_bind OnlyFetch.trans (fetchByte_only s) fun lo t _ => ?_
  exact Acc.state_bind OnlyFetch.trans (fetchByte_only t) fun hi u _ => OnlyFetch.refl u

/-- A fetch that has succeeded leaves the run state as it was. -/
theorem fetchByte_run {s t : State} {b : Byte} (h : fetchByte s = .ok b t) : t.run = s.run := by
  by_cases ha : s.Attached s.pc
  · rw [fetchByte_attached ha] at h
    cases h
    exact s.afterRead_run s.pc
  · rw [fetchByte_unattached ha] at h
    cases h

theorem fetchWord_run {s t : State} {w : Word} (h : fetchWord s = .ok w t) : t.run = s.run := by
  unfold fetchWord at h
  cases h1 : fetchByte s with
  | stop u => rw [h1] at h; cases h
  | ok lo u =>
    rw [h1, Acc.bind_ok] at h
    cases h2 : fetchByte u with
    | stop v => rw [h2] at h; cases h
    | ok hi v =>
      rw [h2] at h
      cases h
      exact (fetchByte_run h2).trans (fetchByte_run h1)

/-- Where the operand fetches lead: to an instruction of the shape, or to a fault. -/
theorem fetchOperands_cases (sh : Shape) (s : State) :
    (∃ i t, fetchOperands sh s = .instr i t ∧ OnlyFetch s t ∧ t.run = s.run) ∨
      ∃ t, fetchOperands sh s = .stopped t ∧ OnlyFetch s t := by
  cases sh with
  | plain i => exact .inl ⟨i, s, rfl, OnlyFetch.refl s, rfl⟩
  | byte mk =>
    have k := fetchByte_only s
    simp only [fetchOperands]
    cases h : fetchByte s with
    | ok b t => rw [h] at k; exact .inl ⟨mk b, t, rfl, k, fetchByte_run h⟩
    | stop t => rw [h] at k; exact .inr ⟨t, rfl, k⟩
  | word mk =>
    have k := fetchWord_only s
    simp only [fetchOperands]
    cases h : fetchWord s with
    | ok w t => rw [h] at k; exact .inl ⟨mk w, t, rfl, k, fetchWord_run h⟩
    | stop t => rw [h] at k; exact .inr ⟨t, rfl, k⟩

/-- A fetch that has succeeded read the byte at PC, which is attached. -/
theorem fetchByte_ok {s t : State} {b : Byte} (h : fetchByte s = .ok b t) :
    s.Attached s.pc ∧ b = s.byteAt s.pc := by
  by_cases ha : s.Attached s.pc
  · rw [fetchByte_attached ha] at h
    cases h
    exact ⟨ha, rfl⟩
  · rw [fetchByte_unattached ha] at h
    cases h

/-- Every next state of a step: a fetch has raised, or the byte at PC has no instruction, or it is the
next state of the instruction fetched. -/
theorem step_next {s t : State} (h : step s = .next t) :
    s.run = .running ∧
      (OnlyFetch s t ∨
        (∃ u, OnlyFetch s u ∧ opcodeShape (s.byteAt s.pc) = none ∧
          t = (u.setPc s.pc).takeFault (.invalidOpcode (s.byteAt s.pc) s.pc)) ∨
        ∃ i u, fetchInstr s = .instr i u ∧ OnlyFetch s u ∧ u.run = .running ∧
          exec i u = .next t) := by
  unfold step at h
  cases hr : s.run with
  | halted => rw [hr] at h; cases h
  | faulted r => rw [hr] at h; cases h
  | running =>
  refine ⟨rfl, ?_⟩
  rw [hr] at h
  simp only at h
  have k := fetchByte_only s
  cases hf : fetchByte s with
  | stop u =>
    rw [hf] at k
    rw [show fetchInstr s = .stopped u by simp only [fetchInstr, hf]] at h
    cases h
    exact .inl k
  | ok op u =>
    rw [hf] at k
    have hu := (fetchByte_run hf).trans hr
    have e : fetchInstr s = dispatchOpcode op s.pc u := by simp only [fetchInstr, hf]
    rw [e] at h ⊢
    unfold dispatchOpcode at h ⊢
    cases hs : opcodeShape op with
    | none =>
      rw [hs] at h
      cases h
      have hop := (fetchByte_ok hf).2
      exact .inr (.inl ⟨u, k, hop ▸ hs, by rw [hop]⟩)
    | some sh =>
      rw [hs] at h
      simp only at h ⊢
      by_cases hd : (isDecimalOpcode op && decimalRefused u) = true
      · rw [if_pos hd] at h
        cases h
      · rw [if_neg hd] at h ⊢
        rcases fetchOperands_cases sh u with ⟨i, v, hi, hv, hvr⟩ | ⟨v, hi, hv⟩
        · rw [hi] at h ⊢
          exact .inr (.inr ⟨i, v, rfl, k.trans hv, hvr.trans hu, h⟩)
        · rw [hi] at h
          cases h
          exact .inl (k.trans hv)

end Sys2Proof.Machine
end

