-- ==== Sys2Proof/Laws/Meanings.lean ====
section
/-!
SUPPORT. What each family's shared operation can answer: every next state it has, as the state its
accesses end in with the family's effect put on it, or not where an access raised.
-/
namespace Sys2Proof.Machine

/-- An instruction that is a part of a step with an effect at its end. -/
theorem Acc.finish_bind_next {α : Type} {r : Acc α} {g : α → State → State} {t : State}
    (h : Acc.finish (r.bind fun v s => .ok () (g v s)) = .next t) :
    t = r.state ∨ ∃ v, t = g v r.state := by
  cases r with
  | ok v u => cases h; exact .inr ⟨v, rfl⟩
  | stop u => cases h; exact .inl rfl

variable {s t : State}

theorem load_next {r : Reg} {src : Source} (h : load r src s = .next t) :
    ∃ u, OnlyAccess [] s u ∧ (t = u ∨ ∃ v, t = u.putReg r v) :=
  ⟨_, readOperand_only src s, Acc.finish_bind_next h⟩

theorem store_next {v : Byte} {m : Mode} (h : store v m s = .next t) :
    OnlyAccess (m.cells s) s t := by
  unfold store at h
  rw [Acc.finish_eq] at h
  cases h
  refine Acc.state_bind OnlyAccess.trans (effectiveAddress_only m s).reads fun ea u he => ?_
  rw [Mode.cells_ok he]
  exact memWrite_only ea v u

theorem addMemory_next {f : Byte → Byte} {src : Source} (h : addMemory f src s = .next t) :
    decimalRefused s = false ∧ ∃ u, OnlyAccess [] s u ∧ (t = u ∨ ∃ v, t = addToA v u) := by
  unfold addMemory at h
  split at h
  · cases h
  · rename_i hd
    refine ⟨by simpa using hd, _, readOperand_only src s, ?_⟩
    exact (Acc.finish_bind_next h).imp id fun ⟨v, e⟩ => ⟨f v, e⟩

theorem logic_next {f : Byte → Byte → Byte} {src : Source} (h : logic f src s = .next t) :
    ∃ u, OnlyAccess [] s u ∧ (t = u ∨ ∃ v, t = u.putReg .a v) :=
  ⟨_, readOperand_only src s, (Acc.finish_bind_next h).imp id fun ⟨v, e⟩ => ⟨f _ v, e⟩⟩

theorem shiftMemory_next {f : Byte → Byte × Bool} {m : Mode} (h : shiftMemory f m s = .next t) :
    ∃ u, OnlyAccess (m.cells s) s u ∧ (t = u ∨ ∃ rc, t = u.setShiftFlags rc) :=
  ⟨_, modifyCell_only _ m s, (Acc.finish_bind_next h).imp id fun ⟨v, e⟩ => ⟨f v, e⟩⟩

theorem stepMemory_next {f : Byte → Byte} {m : Mode} (h : stepMemory f m s = .next t) :
    ∃ u, OnlyAccess (m.cells s) s u ∧ (t = u ∨ ∃ r, t = u.setP (u.p.setZN r)) :=
  ⟨_, modifyCell_only f m s, (Acc.finish_bind_next h).imp id fun ⟨v, e⟩ => ⟨f v, e⟩⟩

theorem compareWith_next {reg : Byte} {src : Source} (h : compareWith reg src s = .next t) :
    ∃ u, OnlyAccess [] s u ∧ (t = u ∨ ∃ v, t = u.setP (u.p.compare reg v)) :=
  ⟨_, readOperand_only src s, Acc.finish_bind_next h⟩

theorem bitTest_next {src : Source} (h : bitTest src s = .next t) :
    ∃ u, OnlyAccess [] s u ∧ (t = u ∨ ∃ v, t = u.setP (u.p.bitTest u.a v)) :=
  ⟨_, readOperand_only src s, Acc.finish_bind_next h⟩

theorem jumpIndirect_next {ww : Word} (h : execJmpInd ww s = .next t) :
    ∃ u, OnlyAccess [] s u ∧ (t = u ∨ ∃ w, t = u.setPc w) :=
  ⟨_, effectiveAddress_only _ s, Acc.finish_bind_next h⟩

theorem push_next {v : Byte} (h : Acc.finish (push v s) = .next t) :
    OnlyStack [stackAddr s.sp] s t := by
  rw [Acc.finish_eq] at h
  cases h
  exact push_only v s

theorem pla_next (h : execPla s = .next t) :
    ∃ u, OnlyStack [] s u ∧ (t = u ∨ ∃ v, t = u.putReg .a v) :=
  ⟨_, pull_only s, Acc.finish_bind_next h⟩

theorem pullStatus_next {r : Acc Unit} (h : pullStatus s = r) :
    ∃ u, OnlyStack [] s u ∧ (r.state = u ∨ ∃ v, r.state = u.setP (u.p.fromStack v)) := by
  subst h
  refine ⟨_, pull_only s, ?_⟩
  have e := Acc.finish_eq (pullStatus s)
  exact Acc.finish_bind_next e

theorem jsr_next {ww : Word} (h : execJsr ww s = .next t) :
    ∃ u, OnlyStack [stackAddr s.sp, stackAddr (s.sp - 1#8)] s u ∧ (t = u ∨ t = u.setPc ww) :=
  ⟨_, pushWord_only _ s, (Acc.finish_bind_next h).imp id fun ⟨_, e⟩ => e⟩

theorem rts_next (h : execRts s = .next t) :
    ∃ u, OnlyStack [] s u ∧ (t = u ∨ ∃ w, t = u.setPc w) :=
  ⟨_, pullWord_only s, (Acc.finish_bind_next h).imp id fun ⟨w, e⟩ => ⟨w + 1#16, e⟩⟩

theorem brk_next (h : execBrk s = .next t) :
    ∃ u, OnlyStack [stackAddr s.sp] s u ∧
      (t = u ∨ t = (u.setP (u.p.setI true)).setRun .halted) :=
  ⟨_, push_only _ s, (Acc.finish_bind_next h).imp id fun ⟨_, e⟩ => e⟩

/-- RTI: after the status is pulled, or not, come the two pulls of PC. -/
theorem rti_next (h : execRti s = .next t) :
    ∃ u, OnlyStack [] s u ∧
      (t = u ∨ ∃ v w, OnlyStack [] (u.setP (u.p.fromStack v)) w ∧ (t = w ∨ ∃ pc, t = w.setPc pc)) := by
  unfold execRti returnFromInterrupt pullStatus at h
  refine ⟨_, pull_only s, ?_⟩
  cases hp : pull s with
  | stop u =>
    rw [hp] at h
    cases h
    exact .inl rfl
  | ok v u =>
    rw [hp] at h
    refine .inr ⟨v, _, pullWord_only _, ?_⟩
    exact Acc.finish_bind_next h

end Sys2Proof.Machine
end

