-- ==== Sys2Proof/Laws/PerInstr.lean ====
section
/-!
SUPPORT. Statements about every instruction as syntax, one lemma per constructor.
-/
namespace Sys2Proof.Laws.EncodedLength

set_option maxRecDepth 4000

/-- The bytes of an instruction are as many as its opcode byte's row asks for (R91, R93). -/
def Statement (i : Instr) : Prop :=
  ∃ op rest sh, encode i = op :: rest ∧ opcodeShape op = some sh ∧ sh.length = (encode i).length

theorem ldaImm (nn : Byte) : Statement (.ldaImm nn) := ⟨_, _, _, rfl, rfl, rfl⟩
theorem ldaZp (nn : Byte) : Statement (.ldaZp nn) := ⟨_, _, _, rfl, rfl, rfl⟩
theorem ldaZpx (nn : Byte) : Statement (.ldaZpx nn) := ⟨_, _, _, rfl, rfl, rfl⟩
theorem ldaAbs (ww : Word) : Statement (.ldaAbs ww) := ⟨_, _, _, rfl, rfl, rfl⟩
theorem ldaAbsx (ww : Word) : Statement (.ldaAbsx ww) := ⟨_, _, _, rfl, rfl, rfl⟩
theorem ldaAbsy (ww : Word) : Statement (.ldaAbsy ww) := ⟨_, _, _, rfl, rfl, rfl⟩
theorem ldaIndx (nn : Byte) : Statement (.ldaIndx nn) := ⟨_, _, _, rfl, rfl, rfl⟩
theorem ldaIndy (nn : Byte) : Statement (.ldaIndy nn) := ⟨_, _, _, rfl, rfl, rfl⟩
theorem ldxImm (nn : Byte) : Statement (.ldxImm nn) := ⟨_, _, _, rfl, rfl, rfl⟩
theorem ldxZp (nn : Byte) : Statement (.ldxZp nn) := ⟨_, _, _, rfl, rfl, rfl⟩
theorem ldxZpy (nn : Byte) : Statement (.ldxZpy nn) := ⟨_, _, _, rfl, rfl, rfl⟩
theorem ldxAbs (ww : Word) : Statement (.ldxAbs ww) := ⟨_, _, _, rfl, rfl, rfl⟩
theorem ldxAbsy (ww : Word) : Statement (.ldxAbsy ww) := ⟨_, _, _, rfl, rfl, rfl⟩
theorem ldyImm (nn : Byte) : Statement (.ldyImm nn) := ⟨_, _, _, rfl, rfl, rfl⟩
theorem ldyZp (nn : Byte) : Statement (.ldyZp nn) := ⟨_, _, _, rfl, rfl, rfl⟩
theorem ldyZpx (nn : Byte) : Statement (.ldyZpx nn) := ⟨_, _, _, rfl, rfl, rfl⟩
theorem ldyAbs (ww : Word) : Statement (.ldyAbs ww) := ⟨_, _, _, rfl, rfl, rfl⟩
theorem ldyAbsx (ww : Word) : Statement (.ldyAbsx ww) := ⟨_, _, _, rfl, rfl, rfl⟩
theorem staZp (nn : Byte) : Statement (.staZp nn) := ⟨_, _, _, rfl, rfl, rfl⟩
theorem staZpx (nn : Byte) : Statement (.staZpx nn) := ⟨_, _, _, rfl, rfl, rfl⟩
theorem staAbs (ww : Word) : Statement (.staAbs ww) := ⟨_, _, _, rfl, rfl, rfl⟩
theorem staAbsx (ww : Word) : Statement (.staAbsx ww) := ⟨_, _, _, rfl, rfl, rfl⟩
theorem staAbsy (ww : Word) : Statement (.staAbsy ww) := ⟨_, _, _, rfl, rfl, rfl⟩
theorem staIndx (nn : Byte) : Statement (.staIndx nn) := ⟨_, _, _, rfl, rfl, rfl⟩
theorem staIndy (nn : Byte) : Statement (.staIndy nn) := ⟨_, _, _, rfl, rfl, rfl⟩
theorem stxZp (nn : Byte) : Statement (.stxZp nn) := ⟨_, _, _, rfl, rfl, rfl⟩
theorem stxZpy (nn : Byte) : Statement (.stxZpy nn) := ⟨_, _, _, rfl, rfl, rfl⟩
theorem stxAbs (ww : Word) : Statement (.stxAbs ww) := ⟨_, _, _, rfl, rfl, rfl⟩
theorem styZp (nn : Byte) : Statement (.styZp nn) := ⟨_, _, _, rfl, rfl, rfl⟩
theorem styZpx (nn : Byte) : Statement (.styZpx nn) := ⟨_, _, _, rfl, rfl, rfl⟩
theorem styAbs (ww : Word) : Statement (.styAbs ww) := ⟨_, _, _, rfl, rfl, rfl⟩
theorem adcImm (nn : Byte) : Statement (.adcImm nn) := ⟨_, _, _, rfl, rfl, rfl⟩
theorem adcZp (nn : Byte) : Statement (.adcZp nn) := ⟨_, _, _, rfl, rfl, rfl⟩
theorem adcZpx (nn : Byte) : Statement (.adcZpx nn) := ⟨_, _, _, rfl, rfl, rfl⟩
theorem adcAbs (ww : Word) : Statement (.adcAbs ww) := ⟨_, _, _, rfl, rfl, rfl⟩
theorem adcAbsx (ww : Word) : Statement (.adcAbsx ww) := ⟨_, _, _, rfl, rfl, rfl⟩
theorem adcAbsy (ww : Word) : Statement (.adcAbsy ww) := ⟨_, _, _, rfl, rfl, rfl⟩
theorem adcIndx (nn : Byte) : Statement (.adcIndx nn) := ⟨_, _, _, rfl, rfl, rfl⟩
theorem adcIndy (nn : Byte) : Statement (.adcIndy nn) := ⟨_, _, _, rfl, rfl, rfl⟩
theorem sbcImm (nn : Byte) : Statement (.sbcImm nn) := ⟨_, _, _, rfl, rfl, rfl⟩
theorem sbcZp (nn : Byte) : Statement (.sbcZp nn) := ⟨_, _, _, rfl, rfl, rfl⟩
theorem sbcZpx (nn : Byte) : Statement (.sbcZpx nn) := ⟨_, _, _, rfl, rfl, rfl⟩
theorem sbcAbs (ww : Word) : Statement (.sbcAbs ww) := ⟨_, _, _, rfl, rfl, rfl⟩
theorem sbcAbsx (ww : Word) : Statement (.sbcAbsx ww) := ⟨_, _, _, rfl, rfl, rfl⟩
theorem sbcAbsy (ww : Word) : Statement (.sbcAbsy ww) := ⟨_, _, _, rfl, rfl, rfl⟩
theorem sbcIndx (nn : Byte) : Statement (.sbcIndx nn) := ⟨_, _, _, rfl, rfl, rfl⟩
theorem sbcIndy (nn : Byte) : Statement (.sbcIndy nn) := ⟨_, _, _, rfl, rfl, rfl⟩
theorem andImm (nn : Byte) : Statement (.andImm nn) := ⟨_, _, _, rfl, rfl, rfl⟩
theorem andZp (nn : Byte) : Statement (.andZp nn) := ⟨_, _, _, rfl, rfl, rfl⟩
theorem andZpx (nn : Byte) : Statement (.andZpx nn) := ⟨_, _, _, rfl, rfl, rfl⟩
theorem andAbs (ww : Word) : Statement (.andAbs ww) := ⟨_, _, _, rfl, rfl, rfl⟩
theorem andAbsx (ww : Word) : Statement (.andAbsx ww) := ⟨_, _, _, rfl, rfl, rfl⟩
theorem andAbsy (ww : Word) : Statement (.andAbsy ww) := ⟨_, _, _, rfl, rfl, rfl⟩
theorem andIndx (nn : Byte) : Statement (.andIndx nn) := ⟨_, _, _, rfl, rfl, rfl⟩
theorem andIndy (nn : Byte) : Statement (.andIndy nn) := ⟨_, _, _, rfl, rfl, rfl⟩
theorem oraImm (nn : Byte) : Statement (.oraImm nn) := ⟨_, _, _, rfl, rfl, rfl⟩
theorem oraZp (nn : Byte) : Statement (.oraZp nn) := ⟨_, _, _, rfl, rfl, rfl⟩
theorem oraZpx (nn : Byte) : Statement (.oraZpx nn) := ⟨_, _, _, rfl, rfl, rfl⟩
theorem oraAbs (ww : Word) : Statement (.oraAbs ww) := ⟨_, _, _, rfl, rfl, rfl⟩
theorem oraAbsx (ww : Word) : Statement (.oraAbsx ww) := ⟨_, _, _, rfl, rfl, rfl⟩
theorem oraAbsy (ww : Word) : Statement (.oraAbsy ww) := ⟨_, _, _, rfl, rfl, rfl⟩
theorem oraIndx (nn : Byte) : Statement (.oraIndx nn) := ⟨_, _, _, rfl, rfl, rfl⟩
theorem oraIndy (nn : Byte) : Statement (.oraIndy nn) := ⟨_, _, _, rfl, rfl, rfl⟩
theorem eorImm (nn : Byte) : Statement (.eorImm nn) := ⟨_, _, _, rfl, rfl, rfl⟩
theorem eorZp (nn : Byte) : Statement (.eorZp nn) := ⟨_, _, _, rfl, rfl, rfl⟩
theorem eorZpx (nn : Byte) : Statement (.eorZpx nn) := ⟨_, _, _, rfl, rfl, rfl⟩
theorem eorAbs (ww : Word) : Statement (.eorAbs ww) := ⟨_, _, _, rfl, rfl, rfl⟩
theorem eorAbsx (ww : Word) : Statement (.eorAbsx ww) := ⟨_, _, _, rfl, rfl, rfl⟩
theorem eorAbsy (ww : Word) : Statement (.eorAbsy ww) := ⟨_, _, _, rfl, rfl, rfl⟩
theorem eorIndx (nn : Byte) : Statement (.eorIndx nn) := ⟨_, _, _, rfl, rfl, rfl⟩
theorem eorIndy (nn : Byte) : Statement (.eorIndy nn) := ⟨_, _, _, rfl, rfl, rfl⟩
theorem aslAcc : Statement .aslAcc := ⟨_, _, _, rfl, rfl, rfl⟩
theorem aslZp (nn : Byte) : Statement (.aslZp nn) := ⟨_, _, _, rfl, rfl, rfl⟩
theorem aslZpx (nn : Byte) : Statement (.aslZpx nn) := ⟨_, _, _, rfl, rfl, rfl⟩
theorem aslAbs (ww : Word) : Statement (.aslAbs ww) := ⟨_, _, _, rfl, rfl, rfl⟩
theorem aslAbsx (ww : Word) : Statement (.aslAbsx ww) := ⟨_, _, _, rfl, rfl, rfl⟩
theorem lsrAcc : Statement .lsrAcc := ⟨_, _, _, rfl, rfl, rfl⟩
theorem lsrZp (nn : Byte) : Statement (.lsrZp nn) := ⟨_, _, _, rfl, rfl, rfl⟩
theorem lsrZpx (nn : Byte) : Statement (.lsrZpx nn) := ⟨_, _, _, rfl, rfl, rfl⟩
theorem lsrAbs (ww : Word) : Statement (.lsrAbs ww) := ⟨_, _, _, rfl, rfl, rfl⟩
theorem lsrAbsx (ww : Word) : Statement (.lsrAbsx ww) := ⟨_, _, _, rfl, rfl, rfl⟩
theorem rolAcc : Statement .rolAcc := ⟨_, _, _, rfl, rfl, rfl⟩
theorem rolZp (nn : Byte) : Statement (.rolZp nn) := ⟨_, _, _, rfl, rfl, rfl⟩
theorem rolZpx (nn : Byte) : Statement (.rolZpx nn) := ⟨_, _, _, rfl, rfl, rfl⟩
theorem rolAbs (ww : Word) : Statement (.rolAbs ww) := ⟨_, _, _, rfl, rfl, rfl⟩
theorem rolAbsx (ww : Word) : Statement (.rolAbsx ww) := ⟨_, _, _, rfl, rfl, rfl⟩
theorem rorAcc : Statement .rorAcc := ⟨_, _, _, rfl, rfl, rfl⟩
theorem rorZp (nn : Byte) : Statement (.rorZp nn) := ⟨_, _, _, rfl, rfl, rfl⟩
theorem rorZpx (nn : Byte) : Statement (.rorZpx nn) := ⟨_, _, _, rfl, rfl, rfl⟩
theorem rorAbs (ww : Word) : Statement (.rorAbs ww) := ⟨_, _, _, rfl, rfl, rfl⟩
theorem rorAbsx (ww : Word) : Statement (.rorAbsx ww) := ⟨_, _, _, rfl, rfl, rfl⟩
theorem cmpImm (nn : Byte) : Statement (.cmpImm nn) := ⟨_, _, _, rfl, rfl, rfl⟩
theorem cmpZp (nn : Byte) : Statement (.cmpZp nn) := ⟨_, _, _, rfl, rfl, rfl⟩
theorem cmpZpx (nn : Byte) : Statement (.cmpZpx nn) := ⟨_, _, _, rfl, rfl, rfl⟩
theorem cmpAbs (ww : Word) : Statement (.cmpAbs ww) := ⟨_, _, _, rfl, rfl, rfl⟩
theorem cmpAbsx (ww : Word) : Statement (.cmpAbsx ww) := ⟨_, _, _, rfl, rfl, rfl⟩
theorem cmpAbsy (ww : Word) : Statement (.cmpAbsy ww) := ⟨_, _, _, rfl, rfl, rfl⟩
theorem cmpIndx (nn : Byte) : Statement (.cmpIndx nn) := ⟨_, _, _, rfl, rfl, rfl⟩
theorem cmpIndy (nn : Byte) : Statement (.cmpIndy nn) := ⟨_, _, _, rfl, rfl, rfl⟩
theorem cpxImm (nn : Byte) : Statement (.cpxImm nn) := ⟨_, _, _, rfl, rfl, rfl⟩
theorem cpxZp (nn : Byte) : Statement (.cpxZp nn) := ⟨_, _, _, rfl, rfl, rfl⟩
theorem cpxAbs (ww : Word) : Statement (.cpxAbs ww) := ⟨_, _, _, rfl, rfl, rfl⟩
theorem cpyImm (nn : Byte) : Statement (.cpyImm nn) := ⟨_, _, _, rfl, rfl, rfl⟩
theorem cpyZp (nn : Byte) : Statement (.cpyZp nn) := ⟨_, _, _, rfl, rfl, rfl⟩
theorem cpyAbs (ww : Word) : Statement (.cpyAbs ww) := ⟨_, _, _, rfl, rfl, rfl⟩
theorem bitZp (nn : Byte) : Statement (.bitZp nn) := ⟨_, _, _, rfl, rfl, rfl⟩
theorem bitAbs (ww : Word) : Statement (.bitAbs ww) := ⟨_, _, _, rfl, rfl, rfl⟩
theorem bcc (rr : Byte) : Statement (.bcc rr) := ⟨_, _, _, rfl, rfl, rfl⟩
theorem bcs (rr : Byte) : Statement (.bcs rr) := ⟨_, _, _, rfl, rfl, rfl⟩
theorem beq (rr : Byte) : Statement (.beq rr) := ⟨_, _, _, rfl, rfl, rfl⟩
theorem bne (rr : Byte) : Statement (.bne rr) := ⟨_, _, _, rfl, rfl, rfl⟩
theorem bmi (rr : Byte) : Statement (.bmi rr) := ⟨_, _, _, rfl, rfl, rfl⟩
theorem bpl (rr : Byte) : Statement (.bpl rr) := ⟨_, _, _, rfl, rfl, rfl⟩
theorem bvc (rr : Byte) : Statement (.bvc rr) := ⟨_, _, _, rfl, rfl, rfl⟩
theorem bvs (rr : Byte) : Statement (.bvs rr) := ⟨_, _, _, rfl, rfl, rfl⟩
theorem jmpAbs (ww : Word) : Statement (.jmpAbs ww) := ⟨_, _, _, rfl, rfl, rfl⟩
theorem jmpInd (ww : Word) : Statement (.jmpInd ww) := ⟨_, _, _, rfl, rfl, rfl⟩
theorem pha : Statement .pha := ⟨_, _, _, rfl, rfl, rfl⟩
theorem php : Statement .php := ⟨_, _, _, rfl, rfl, rfl⟩
theorem pla : Statement .pla := ⟨_, _, _, rfl, rfl, rfl⟩
theorem plp : Statement .plp := ⟨_, _, _, rfl, rfl, rfl⟩
theorem jsr (ww : Word) : Statement (.jsr ww) := ⟨_, _, _, rfl, rfl, rfl⟩
theorem rts : Statement .rts := ⟨_, _, _, rfl, rfl, rfl⟩
theorem brk : Statement .brk := ⟨_, _, _, rfl, rfl, rfl⟩
theorem rti : Statement .rti := ⟨_, _, _, rfl, rfl, rfl⟩
theorem tax : Statement .tax := ⟨_, _, _, rfl, rfl, rfl⟩
theorem tay : Statement .tay := ⟨_, _, _, rfl, rfl, rfl⟩
theorem txa : Statement .txa := ⟨_, _, _, rfl, rfl, rfl⟩
theorem tya : Statement .tya := ⟨_, _, _, rfl, rfl, rfl⟩
theorem tsx : Statement .tsx := ⟨_, _, _, rfl, rfl, rfl⟩
theorem txs : Statement .txs := ⟨_, _, _, rfl, rfl, rfl⟩
theorem inx : Statement .inx := ⟨_, _, _, rfl, rfl, rfl⟩
theorem iny : Statement .iny := ⟨_, _, _, rfl, rfl, rfl⟩
theorem dex : Statement .dex := ⟨_, _, _, rfl, rfl, rfl⟩
theorem dey : Statement .dey := ⟨_, _, _, rfl, rfl, rfl⟩
theorem incZp (nn : Byte) : Statement (.incZp nn) := ⟨_, _, _, rfl, rfl, rfl⟩
theorem incZpx (nn : Byte) : Statement (.incZpx nn) := ⟨_, _, _, rfl, rfl, rfl⟩
theorem incAbs (ww : Word) : Statement (.incAbs ww) := ⟨_, _, _, rfl, rfl, rfl⟩
theorem incAbsx (ww : Word) : Statement (.incAbsx ww) := ⟨_, _, _, rfl, rfl, rfl⟩
theorem decZp (nn : Byte) : Statement (.decZp nn) := ⟨_, _, _, rfl, rfl, rfl⟩
theorem decZpx (nn : Byte) : Statement (.decZpx nn) := ⟨_, _, _, rfl, rfl, rfl⟩
theorem decAbs (ww : Word) : Statement (.decAbs ww) := ⟨_, _, _, rfl, rfl, rfl⟩
theorem decAbsx (ww : Word) : Statement (.decAbsx ww) := ⟨_, _, _, rfl, rfl, rfl⟩
theorem clc : Statement .clc := ⟨_, _, _, rfl, rfl, rfl⟩
theorem sec : Statement .sec := ⟨_, _, _, rfl, rfl, rfl⟩
theorem cli : Statement .cli := ⟨_, _, _, rfl, rfl, rfl⟩
theorem sei : Statement .sei := ⟨_, _, _, rfl, rfl, rfl⟩
theorem clv : Statement .clv := ⟨_, _, _, rfl, rfl, rfl⟩
theorem cld : Statement .cld := ⟨_, _, _, rfl, rfl, rfl⟩
theorem sed : Statement .sed := ⟨_, _, _, rfl, rfl, rfl⟩
theorem nop : Statement .nop := ⟨_, _, _, rfl, rfl, rfl⟩

end Sys2Proof.Laws.EncodedLength
end

