-- ==== Sys2Proof/Tests/Slice0.lean ====
section
/-!
SUPPORT. The model's own tests: the well-formedness checks and a term each refuses; every row of the
opcode table decoded from a word written out; one step at a time, the vectors of 95_test_vectors.md; and
for each statement with hypotheses a concrete state that meets them.
-/
namespace Sys2Proof.Tests

open Sys2Proof.Machine Sys2Proof.Claims

/-- S0 of 95_test_vectors.md: the state after setup with reset vector `00 80`. -/
def s0 : State :=
  { State.reset with pc := 0x8000#16, mem := [(0xFFFD, 0x80#8)] }

/-- P from its byte, as the vectors write it. -/
def statusOf (v : Byte) : Status :=
  { n := v.getLsbD 7, v := v.getLsbD 6, b := v.getLsbD 4, d := v.getLsbD 3, i := v.getLsbD 2,
    z := v.getLsbD 1, c := v.getLsbD 0 }

/-- Cells set in storage through the mirror tables. -/
def put (s : State) : List (Word × Byte) → State
  | [] => s
  | (a, v) :: rest => put (placeByte s a v) rest

/-- Whether an answer is a next state that passes a check. -/
def endsIn (o : Answer) (check : State → Bool) : Bool :=
  match o with
  | .next t => check t
  | .fault _ => false
  | .refused _ => false

/-- One step from a state with an instruction's bytes at PC and cells set. -/
def after (s : State) (bytes : List Byte) (cells : List (Word × Byte)) (check : State → Bool) : Bool :=
  endsIn (step (put (placeBytes s s.pc bytes) cells)) check

/-- Whether the decoder reads each row's bytes as its instruction and leaves nothing. -/
def decodesAll (rows : List (List Byte × Instr)) : Bool :=
  rows.all fun r => decide (decode r.1 = .ok (r.2, []))

/-! ### Well-formedness: a term that passes each check, and one that it refuses -/

theorem test_range_wf : ({ lo := 0x0000, hi := 0x10000 } : Range).wf = true := by decide
theorem test_range_beyond_space : ({ lo := 0xFFFF, hi := 0x10001 } : Range).wf = false := by decide
theorem test_range_backwards : ({ lo := 0x0800, hi := 0x07FF } : Range).wf = false := by decide

theorem test_mirror_lengths :
    ({ lo := 0x0000, hi := 0x0800 } : Range).mirrorLengthsWf ramMirrorRanges = true := by decide
theorem test_mirror_lengths_unequal :
    ({ lo := 0x0000, hi := 0x0800 } : Range).mirrorLengthsWf [{ lo := 0x0800, hi := 0x0FFF }] =
      false := by decide

theorem test_mirror_clear :
    ({ lo := 0x0800, canon := 0, len := 0x0800, count := 3 } : Mirror).clearOf
      { lo := 0x0800, canon := 0, len := 0x0800, count := 3 } = true := by decide
theorem test_mirror_chained :
    ({ lo := 0x1000, canon := 0x0800, len := 0x0800, count := 1 } : Mirror).clearOf
      { lo := 0x0800, canon := 0, len := 0x0800, count := 1 } = false := by decide
theorem test_table_wf : Mirror.tableWf State.reset.mirrors = true := by decide
theorem test_table_chained :
    Mirror.tableWf [{ lo := 0x1000, canon := 0x0800, len := 0x0800, count := 1 },
      { lo := 0x0800, canon := 0, len := 0x0800, count := 1 }] = false := by decide

theorem test_mirror_in_space :
    ({ lo := 0xC000, canon := 0x8000, len := 0x4000, count := 1 } : Mirror).inSpace = true := by decide
theorem test_mirror_beyond_space :
    ({ lo := 0xC000, canon := 0x8000, len := 0x4000, count := 2 } : Mirror).inSpace = false := by
  decide

theorem test_image_wf : Config.imageWf (List.replicate 16384 0x00#8) = true := by
  unfold Config.imageWf; rw [List.length_replicate]; rfl
theorem test_image_wf_32k : Config.imageWf (List.replicate 32768 0x00#8) = true := by
  unfold Config.imageWf; rw [List.length_replicate]; rfl
theorem test_image_8k : Config.imageWf (List.replicate 8192 0x00#8) = false := by
  unfold Config.imageWf; rw [List.length_replicate]; rfl

/-- The opcode map has 151 rows and no two with one opcode byte (R94). -/
theorem test_opcode_rows : opcodeRows.length = 151 ∧ (opcodeRows.map (·.1)).Nodup := by
  decide +kernel

/-! ### Decoding: every row of spec/opcode_table.json, its word written out -/

theorem test_decode_stack : decodesAll
    [ ([0x00#8], .brk),
      ([0x08#8], .php),
      ([0x20#8, 0x34#8, 0x92#8], .jsr 0x9234#16),
      ([0x28#8], .plp),
      ([0x40#8], .rti),
      ([0x48#8], .pha),
      ([0x60#8], .rts),
      ([0x68#8], .pla) ] = true := by
  decide

theorem test_decode_logic : decodesAll
    [ ([0x01#8, 0x81#8], .oraIndx 0x81#8),
      ([0x05#8, 0x81#8], .oraZp 0x81#8),
      ([0x09#8, 0x81#8], .oraImm 0x81#8),
      ([0x0D#8, 0x34#8, 0x92#8], .oraAbs 0x9234#16),
      ([0x11#8, 0x81#8], .oraIndy 0x81#8),
      ([0x15#8, 0x81#8], .oraZpx 0x81#8),
      ([0x19#8, 0x34#8, 0x92#8], .oraAbsy 0x9234#16),
      ([0x1D#8, 0x34#8, 0x92#8], .oraAbsx 0x9234#16),
      ([0x21#8, 0x81#8], .andIndx 0x81#8),
      ([0x25#8, 0x81#8], .andZp 0x81#8),
      ([0x29#8, 0x81#8], .andImm 0x81#8),
      ([0x2D#8, 0x34#8, 0x92#8], .andAbs 0x9234#16),
      ([0x31#8, 0x81#8], .andIndy 0x81#8),
      ([0x35#8, 0x81#8], .andZpx 0x81#8),
      ([0x39#8, 0x34#8, 0x92#8], .andAbsy 0x9234#16),
      ([0x3D#8, 0x34#8, 0x92#8], .andAbsx 0x9234#16),
      ([0x41#8, 0x81#8], .eorIndx 0x81#8),
      ([0x45#8, 0x81#8], .eorZp 0x81#8),
      ([0x49#8, 0x81#8], .eorImm 0x81#8),
      ([0x4D#8, 0x34#8, 0x92#8], .eorAbs 0x9234#16),
      ([0x51#8, 0x81#8], .eorIndy 0x81#8),
      ([0x55#8, 0x81#8], .eorZpx 0x81#8),
      ([0x59#8, 0x34#8, 0x92#8], .eorAbsy 0x9234#16),
      ([0x5D#8, 0x34#8, 0x92#8], .eorAbsx 0x9234#16) ] = true := by
  decide

theorem test_decode_shift : decodesAll
    [ ([0x06#8, 0x81#8], .aslZp 0x81#8),
      ([0x0A#8], .aslAcc),
      ([0x0E#8, 0x34#8, 0x92#8], .aslAbs 0x9234#16),
      ([0x16#8, 0x81#8], .aslZpx 0x81#8),
      ([0x1E#8, 0x34#8, 0x92#8], .aslAbsx 0x9234#16),
      ([0x26#8, 0x81#8], .rolZp 0x81#8),
      ([0x2A#8], .rolAcc),
      ([0x2E#8, 0x34#8, 0x92#8], .rolAbs 0x9234#16),
      ([0x36#8, 0x81#8], .rolZpx 0x81#8),
      ([0x3E#8, 0x34#8, 0x92#8], .rolAbsx 0x9234#16),
      ([0x46#8, 0x81#8], .lsrZp 0x81#8),
      ([0x4A#8], .lsrAcc),
      ([0x4E#8, 0x34#8, 0x92#8], .lsrAbs 0x9234#16),
      ([0x56#8, 0x81#8], .lsrZpx 0x81#8),
      ([0x5E#8, 0x34#8, 0x92#8], .lsrAbsx 0x9234#16),
      ([0x66#8, 0x81#8], .rorZp 0x81#8),
      ([0x6A#8], .rorAcc),
      ([0x6E#8, 0x34#8, 0x92#8], .rorAbs 0x9234#16),
      ([0x76#8, 0x81#8], .rorZpx 0x81#8),
      ([0x7E#8, 0x34#8, 0x92#8], .rorAbsx 0x9234#16) ] = true := by
  decide

theorem test_decode_branch : decodesAll
    [ ([0x10#8, 0x81#8], .bpl 0x81#8),
      ([0x30#8, 0x81#8], .bmi 0x81#8),
      ([0x4C#8, 0x34#8, 0x92#8], .jmpAbs 0x9234#16),
      ([0x50#8, 0x81#8], .bvc 0x81#8),
      ([0x6C#8, 0x34#8, 0x92#8], .jmpInd 0x9234#16),
      ([0x70#8, 0x81#8], .bvs 0x81#8),
      ([0x90#8, 0x81#8], .bcc 0x81#8),
      ([0xB0#8, 0x81#8], .bcs 0x81#8),
      ([0xD0#8, 0x81#8], .bne 0x81#8),
      ([0xF0#8, 0x81#8], .beq 0x81#8) ] = true := by
  decide

theorem test_decode_transfer : decodesAll
    [ ([0x18#8], .clc),
      ([0x38#8], .sec),
      ([0x58#8], .cli),
      ([0x78#8], .sei),
      ([0x88#8], .dey),
      ([0x8A#8], .txa),
      ([0x98#8], .tya),
      ([0x9A#8], .txs),
      ([0xA8#8], .tay),
      ([0xAA#8], .tax),
      ([0xB8#8], .clv),
      ([0xBA#8], .tsx),
      ([0xC6#8, 0x81#8], .decZp 0x81#8),
      ([0xC8#8], .iny),
      ([0xCA#8], .dex),
      ([0xCE#8, 0x34#8, 0x92#8], .decAbs 0x9234#16),
      ([0xD6#8, 0x81#8], .decZpx 0x81#8),
      ([0xD8#8], .cld),
      ([0xDE#8, 0x34#8, 0x92#8], .decAbsx 0x9234#16),
      ([0xE6#8, 0x81#8], .incZp 0x81#8),
      ([0xE8#8], .inx),
      ([0xEA#8], .nop),
      ([0xEE#8, 0x34#8, 0x92#8], .incAbs 0x9234#16),
      ([0xF6#8, 0x81#8], .incZpx 0x81#8),
      ([0xF8#8], .sed),
      ([0xFE#8, 0x34#8, 0x92#8], .incAbsx 0x9234#16) ] = true := by
  decide

theorem test_decode_compare : decodesAll
    [ ([0x24#8, 0x81#8], .bitZp 0x81#8),
      ([0x2C#8, 0x34#8, 0x92#8], .bitAbs 0x9234#16),
      ([0xC0#8, 0x81#8], .cpyImm 0x81#8),
      ([0xC1#8, 0x81#8], .cmpIndx 0x81#8),
      ([0xC4#8, 0x81#8], .cpyZp 0x81#8),
      ([0xC5#8, 0x81#8], .cmpZp 0x81#8),
      ([0xC9#8, 0x81#8], .cmpImm 0x81#8),
      ([0xCC#8, 0x34#8, 0x92#8], .cpyAbs 0x9234#16),
      ([0xCD#8, 0x34#8, 0x92#8], .cmpAbs 0x9234#16),
      ([0xD1#8, 0x81#8], .cmpIndy 0x81#8),
      ([0xD5#8, 0x81#8], .cmpZpx 0x81#8),
      ([0xD9#8, 0x34#8, 0x92#8], .cmpAbsy 0x9234#16),
      ([0xDD#8, 0x34#8, 0x92#8], .cmpAbsx 0x9234#16),
      ([0xE0#8, 0x81#8], .cpxImm 0x81#8),
      ([0xE4#8, 0x81#8], .cpxZp 0x81#8),
      ([0xEC#8, 0x34#8, 0x92#8], .cpxAbs 0x9234#16) ] = true := by
  decide

theorem test_decode_arithmetic : decodesAll
    [ ([0x61#8, 0x81#8], .adcIndx 0x81#8),
      ([0x65#8, 0x81#8], .adcZp 0x81#8),
      ([0x69#8, 0x81#8], .adcImm 0x81#8),
      ([0x6D#8, 0x34#8, 0x92#8], .adcAbs 0x9234#16),
      ([0x71#8, 0x81#8], .adcIndy 0x81#8),
      ([0x75#8, 0x81#8], .adcZpx 0x81#8),
      ([0x79#8, 0x34#8, 0x92#8], .adcAbsy 0x9234#16),
      ([0x7D#8, 0x34#8, 0x92#8], .adcAbsx 0x9234#16),
      ([0xE1#8, 0x81#8], .sbcIndx 0x81#8),
      ([0xE5#8, 0x81#8], .sbcZp 0x81#8),
      ([0xE9#8, 0x81#8], .sbcImm 0x81#8),
      ([0xED#8, 0x34#8, 0x92#8], .sbcAbs 0x9234#16),
      ([0xF1#8, 0x81#8], .sbcIndy 0x81#8),
      ([0xF5#8, 0x81#8], .sbcZpx 0x81#8),
      ([0xF9#8, 0x34#8, 0x92#8], .sbcAbsy 0x9234#16),
      ([0xFD#8, 0x34#8, 0x92#8], .sbcAbsx 0x9234#16) ] = true := by
  decide

theorem test_decode_load_store : decodesAll
    [ ([0x81#8, 0x81#8], .staIndx 0x81#8),
      ([0x84#8, 0x81#8], .styZp 0x81#8),
      ([0x85#8, 0x81#8], .staZp 0x81#8),
      ([0x86#8, 0x81#8], .stxZp 0x81#8),
      ([0x8C#8, 0x34#8, 0x92#8], .styAbs 0x9234#16),
      ([0x8D#8, 0x34#8, 0x92#8], .staAbs 0x9234#16),
      ([0x8E#8, 0x34#8, 0x92#8], .stxAbs 0x9234#16),
      ([0x91#8, 0x81#8], .staIndy 0x81#8),
      ([0x94#8, 0x81#8], .styZpx 0x81#8),
      ([0x95#8, 0x81#8], .staZpx 0x81#8),
      ([0x96#8, 0x81#8], .stxZpy 0x81#8),
      ([0x99#8, 0x34#8, 0x92#8], .staAbsy 0x9234#16),
      ([0x9D#8, 0x34#8, 0x92#8], .staAbsx 0x9234#16),
      ([0xA0#8, 0x81#8], .ldyImm 0x81#8),
      ([0xA1#8, 0x81#8], .ldaIndx 0x81#8),
      ([0xA2#8, 0x81#8], .ldxImm 0x81#8),
      ([0xA4#8, 0x81#8], .ldyZp 0x81#8),
      ([0xA5#8, 0x81#8], .ldaZp 0x81#8),
      ([0xA6#8, 0x81#8], .ldxZp 0x81#8),
      ([0xA9#8, 0x81#8], .ldaImm 0x81#8),
      ([0xAC#8, 0x34#8, 0x92#8], .ldyAbs 0x9234#16),
      ([0xAD#8, 0x34#8, 0x92#8], .ldaAbs 0x9234#16),
      ([0xAE#8, 0x34#8, 0x92#8], .ldxAbs 0x9234#16),
      ([0xB1#8, 0x81#8], .ldaIndy 0x81#8),
      ([0xB4#8, 0x81#8], .ldyZpx 0x81#8),
      ([0xB5#8, 0x81#8], .ldaZpx 0x81#8),
      ([0xB6#8, 0x81#8], .ldxZpy 0x81#8),
      ([0xB9#8, 0x34#8, 0x92#8], .ldaAbsy 0x9234#16),
      ([0xBC#8, 0x34#8, 0x92#8], .ldyAbsx 0x9234#16),
      ([0xBD#8, 0x34#8, 0x92#8], .ldaAbsx 0x9234#16),
      ([0xBE#8, 0x34#8, 0x92#8], .ldxAbsy 0x9234#16) ] = true := by
  decide

/-! ### One step from S0: vectors of 95_test_vectors.md part 2 -/

/-- V-LS-1: LDA #$00. -/
theorem test_step_V_LS_1 :
    after (s0)
      [0xA9#8, 0x00#8] []
      (fun t => decide (t.p.toByte = 0x36#8 ∧ t.pc = 0x8002#16)) = true := by
  decide

/-- V-LS-3: LDA #$7F: clears N and Z left over from before. -/
theorem test_step_V_LS_3 :
    after ({ s0 with p := statusOf 0xB6#8 })
      [0xA9#8, 0x7F#8] []
      (fun t => decide (t.a = 0x7F#8 ∧ t.p.toByte = 0x34#8 ∧ t.pc = 0x8002#16)) = true := by
  decide

/-- V-LS-6: LDA $F8,X: zero-page wrap (default). -/
theorem test_step_V_LS_6 :
    after ({ s0 with x := 0x10#8 })
      [0xB5#8, 0xF8#8] [(0x0008#16, 0x11#8), (0x0108#16, 0x22#8)]
      (fun t => decide (t.a = 0x11#8 ∧ t.p.toByte = 0x34#8 ∧ t.pc = 0x8002#16)) = true := by
  decide

/-- V-LS-7: LDA $F8,X: spill into page 1. -/
theorem test_step_V_LS_7 :
    after ({ s0 with x := 0x10#8, params := { Params.default with zpIndexWrap := false } })
      [0xB5#8, 0xF8#8] [(0x0008#16, 0x11#8), (0x0108#16, 0x22#8)]
      (fun t => decide (t.a = 0x22#8 ∧ t.p.toByte = 0x34#8 ∧ t.pc = 0x8002#16)) = true := by
  decide

/-- V-LS-8: LDA $12F0,X: page cross, no extra access; 0x1310 mirrors 0x0310. -/
theorem test_step_V_LS_8 :
    after ({ s0 with x := 0x20#8 })
      [0xBD#8, 0xF0#8, 0x12#8] [(0x1310#16, 0x01#8)]
      (fun t => decide (t.a = 0x01#8 ∧ t.p.toByte = 0x34#8 ∧ t.pc = 0x8003#16)) = true := by
  decide

/-- V-LS-9: LDA $FFF0,Y: wraps mod 65536 to 0x0010. -/
theorem test_step_V_LS_9 :
    after ({ s0 with y := 0x20#8 })
      [0xB9#8, 0xF0#8, 0xFF#8] [(0x0010#16, 0x9C#8)]
      (fun t => decide (t.a = 0x9C#8 ∧ t.p.toByte = 0xB4#8 ∧ t.pc = 0x8003#16)) = true := by
  decide

/-- V-LS-10: LDA ($40,X). -/
theorem test_step_V_LS_10 :
    after ({ s0 with x := 0x02#8 })
      [0xA1#8, 0x40#8] [(0x0042#16, 0x00#8), (0x0043#16, 0x03#8), (0x0300#16, 0xC3#8)]
      (fun t => decide (t.a = 0xC3#8 ∧ t.p.toByte = 0xB4#8 ∧ t.pc = 0x8002#16)) = true := by
  decide

/-- V-LS-13: LDA ($FF),Y: pointer high byte from 0x0100 (default). -/
theorem test_step_V_LS_13 :
    after ({ s0 with y := 0x01#8 })
      [0xB1#8, 0xFF#8] [(0x00FF#16, 0x00#8), (0x0100#16, 0x03#8), (0x0000#16, 0x02#8), (0x0301#16, 0xAB#8), (0x0201#16, 0xCD#8)]
      (fun t => decide (t.a = 0xAB#8 ∧ t.p.toByte = 0xB4#8 ∧ t.pc = 0x8002#16)) = true := by
  decide

/-- V-LS-14: LDA ($FF),Y: pointer high byte from 0x0000. -/
theorem test_step_V_LS_14 :
    after ({ s0 with y := 0x01#8, params := { Params.default with read16PageWrap := true } })
      [0xB1#8, 0xFF#8] [(0x00FF#16, 0x00#8), (0x0100#16, 0x03#8), (0x0000#16, 0x02#8), (0x0301#16, 0xAB#8), (0x0201#16, 0xCD#8)]
      (fun t => decide (t.a = 0xCD#8 ∧ t.p.toByte = 0xB4#8 ∧ t.pc = 0x8002#16)) = true := by
  decide

/-- V-LS-15: LDA $4000: unattached; PC already past the operand. -/
theorem test_step_V_LS_15 :
    after (s0)
      [0xAD#8, 0x00#8, 0x40#8] []
      (fun t => decide (t.p.toByte = 0x34#8 ∧ t.pc = 0x8003#16 ∧ t.stepResult = .fault (.busFault 0x4000#16 .read))) = true := by
  decide

/-- V-LS-16: LDA $1134 with pc0 = 0xFFFE: the operand high byte is fetched from 0x0000 because PC wraps; EA = 0x1134, a RAM mirror of 0x0134, which holds 0. -/
theorem test_step_V_LS_16 :
    after ({ s0 with pc := 0xFFFE#16 })
      [0xAD#8, 0x34#8] [(0x0000#16, 0x11#8)]
      (fun t => decide (t.p.toByte = 0x36#8 ∧ t.pc = 0x0001#16)) = true := by
  decide

/-- V-LS-17: LDX $F0,Y. -/
theorem test_step_V_LS_17 :
    after ({ s0 with y := 0x20#8 })
      [0xB6#8, 0xF0#8] [(0x0010#16, 0x99#8)]
      (fun t => decide (t.x = 0x99#8 ∧ t.p.toByte = 0xB4#8 ∧ t.pc = 0x8002#16)) = true := by
  decide

/-- V-LS-18: LDX #$00. -/
theorem test_step_V_LS_18 :
    after ({ s0 with x := 0x55#8 })
      [0xA2#8, 0x00#8] []
      (fun t => decide (t.x = 0x00#8 ∧ t.p.toByte = 0x36#8 ∧ t.pc = 0x8002#16)) = true := by
  decide

/-- V-LS-19: LDY $FFFF,X. -/
theorem test_step_V_LS_19 :
    after ({ s0 with x := 0x01#8 })
      [0xBC#8, 0xFF#8, 0xFF#8] [(0x0000#16, 0x07#8)]
      (fun t => decide (t.y = 0x07#8 ∧ t.p.toByte = 0x34#8 ∧ t.pc = 0x8003#16)) = true := by
  decide

/-- V-LS-20: LDY #$FF. -/
theorem test_step_V_LS_20 :
    after (s0)
      [0xA0#8, 0xFF#8] []
      (fun t => decide (t.y = 0xFF#8 ∧ t.p.toByte = 0xB4#8 ∧ t.pc = 0x8002#16)) = true := by
  decide

/-- V-LS-23: STA $4000: nothing is written. -/
theorem test_step_V_LS_23 :
    after ({ s0 with a := 0x01#8 })
      [0x8D#8, 0x00#8, 0x40#8] []
      (fun t => decide (t.p.toByte = 0x34#8 ∧ t.pc = 0x8003#16 ∧ t.stepResult = .fault (.busFault 0x4000#16 .write))) = true := by
  decide

/-- V-MM-1: STA $3FFF: last I/O mirror; cell 0x2007. -/
theorem test_step_V_MM_1 :
    after ({ s0 with a := 0x21#8 })
      [0x8D#8, 0xFF#8, 0x3F#8] []
      (fun t => decide (t.p.toByte = 0x34#8 ∧ t.pc = 0x8003#16 ∧ t.cell 0x3FFF#16 = 0x21#8)) = true := by
  decide

/-- V-LS-25: STA ($FF,X): pointer from 0xFF/0x00 -> 0x0200. -/
theorem test_step_V_LS_25 :
    after ({ s0 with a := 0x77#8, x := 0x00#8, params := { Params.default with read16PageWrap := true } })
      [0x81#8, 0xFF#8] [(0x00FF#16, 0x00#8), (0x0100#16, 0x03#8), (0x0000#16, 0x02#8)]
      (fun t => decide (t.p.toByte = 0x34#8 ∧ t.pc = 0x8002#16 ∧ t.cell 0x0200#16 = 0x77#8)) = true := by
  decide

/-- V-LS-27: STA ($F0,X): pointer at 0x0100 instead. -/
theorem test_step_V_LS_27 :
    after ({ s0 with a := 0x66#8, x := 0x10#8, params := { Params.default with zpIndexWrap := false } })
      [0x81#8, 0xF0#8] [(0x0000#16, 0x00#8), (0x0001#16, 0x03#8), (0x0100#16, 0x00#8), (0x0101#16, 0x04#8)]
      (fun t => decide (t.p.toByte = 0x34#8 ∧ t.pc = 0x8002#16 ∧ t.cell 0x0400#16 = 0x66#8)) = true := by
  decide

/-- V-LS-28: STX $10. -/
theorem test_step_V_LS_28 :
    after ({ s0 with x := 0x05#8 })
      [0x86#8, 0x10#8] []
      (fun t => decide (t.p.toByte = 0x34#8 ∧ t.pc = 0x8002#16 ∧ t.cell 0x0010#16 = 0x05#8)) = true := by
  decide

/-- V-LS-29: STX $F0,Y. -/
theorem test_step_V_LS_29 :
    after ({ s0 with x := 0xAB#8, y := 0x20#8 })
      [0x96#8, 0xF0#8] []
      (fun t => decide (t.p.toByte = 0x34#8 ∧ t.pc = 0x8002#16 ∧ t.cell 0x0010#16 = 0xAB#8)) = true := by
  decide

/-- V-LS-30: STY $2008: I/O register 0x2000. -/
theorem test_step_V_LS_30 :
    after ({ s0 with y := 0x03#8 })
      [0x8C#8, 0x08#8, 0x20#8] []
      (fun t => decide (t.p.toByte = 0x34#8 ∧ t.pc = 0x8003#16 ∧ t.cell 0x2008#16 = 0x03#8)) = true := by
  decide

/-- V-LS-31: STY $FF,X: EA 0x00FE. -/
theorem test_step_V_LS_31 :
    after ({ s0 with x := 0xFF#8, y := 0x3C#8 })
      [0x94#8, 0xFF#8] []
      (fun t => decide (t.p.toByte = 0x34#8 ∧ t.pc = 0x8002#16 ∧ t.cell 0x00FE#16 = 0x3C#8)) = true := by
  decide

/-- V-LS-32: STY $FF,X: EA 0x01FE. -/
theorem test_step_V_LS_32 :
    after ({ s0 with x := 0xFF#8, y := 0x3C#8, params := { Params.default with zpIndexWrap := false } })
      [0x94#8, 0xFF#8] []
      (fun t => decide (t.p.toByte = 0x34#8 ∧ t.pc = 0x8002#16 ∧ t.cell 0x01FE#16 = 0x3C#8)) = true := by
  decide

/-- V-AL-1: ADC #$50: §8 example. -/
theorem test_step_V_AL_1 :
    after ({ s0 with a := 0x50#8 })
      [0x69#8, 0x50#8] []
      (fun t => decide (t.a = 0xA0#8 ∧ t.p.toByte = 0xF4#8 ∧ t.pc = 0x8002#16)) = true := by
  decide

/-- V-AL-6: ADC #$09: D=1, DECIMAL_POLICY=binary: 0x12, not BCD 0x18; under `refuse` the step is refused. -/
theorem test_step_V_AL_6 :
    after ({ s0 with a := 0x09#8, p := statusOf 0x3C#8 })
      [0x69#8, 0x09#8] []
      (fun t => decide (t.a = 0x12#8 ∧ t.p.toByte = 0x3C#8 ∧ t.pc = 0x8002#16)) = true := by
  decide

/-- V-AL-7: ADC $10. -/
theorem test_step_V_AL_7 :
    after ({ s0 with a := 0x01#8 })
      [0x65#8, 0x10#8] [(0x0010#16, 0x02#8)]
      (fun t => decide (t.a = 0x03#8 ∧ t.p.toByte = 0x34#8 ∧ t.pc = 0x8002#16)) = true := by
  decide

/-- V-AL-8: SBC #$01: §8 example. -/
theorem test_step_V_AL_8 :
    after ({ s0 with a := 0x00#8, p := statusOf 0x35#8 })
      [0xE9#8, 0x01#8] []
      (fun t => decide (t.a = 0xFF#8 ∧ t.p.toByte = 0xB4#8 ∧ t.pc = 0x8002#16)) = true := by
  decide

/-- V-AL-12: SBC #$FF: 0x7F - (-1) overflows. -/
theorem test_step_V_AL_12 :
    after ({ s0 with a := 0x7F#8, p := statusOf 0x35#8 })
      [0xE9#8, 0xFF#8] []
      (fun t => decide (t.a = 0x80#8 ∧ t.p.toByte = 0xF4#8 ∧ t.pc = 0x8002#16)) = true := by
  decide

/-- V-AL-13: AND #$3C. -/
theorem test_step_V_AL_13 :
    after ({ s0 with a := 0xF0#8 })
      [0x29#8, 0x3C#8] []
      (fun t => decide (t.a = 0x30#8 ∧ t.p.toByte = 0x34#8 ∧ t.pc = 0x8002#16)) = true := by
  decide

/-- V-AL-14: AND #$00. -/
theorem test_step_V_AL_14 :
    after ({ s0 with a := 0xFF#8 })
      [0x29#8, 0x00#8] []
      (fun t => decide (t.a = 0x00#8 ∧ t.p.toByte = 0x36#8 ∧ t.pc = 0x8002#16)) = true := by
  decide

/-- V-AL-15: ORA #$80. -/
theorem test_step_V_AL_15 :
    after ({ s0 with a := 0x0F#8 })
      [0x09#8, 0x80#8] []
      (fun t => decide (t.a = 0x8F#8 ∧ t.p.toByte = 0xB4#8 ∧ t.pc = 0x8002#16)) = true := by
  decide

/-- V-AL-16: ORA #$00: C and V untouched. -/
theorem test_step_V_AL_16 :
    after ({ s0 with a := 0x00#8, p := statusOf 0xF5#8 })
      [0x09#8, 0x00#8] []
      (fun t => decide (t.p.toByte = 0x77#8 ∧ t.pc = 0x8002#16)) = true := by
  decide

/-- V-AL-17: EOR #$0F. -/
theorem test_step_V_AL_17 :
    after ({ s0 with a := 0xFF#8 })
      [0x49#8, 0x0F#8] []
      (fun t => decide (t.a = 0xF0#8 ∧ t.p.toByte = 0xB4#8 ∧ t.pc = 0x8002#16)) = true := by
  decide

/-- V-AL-18: EOR #$55. -/
theorem test_step_V_AL_18 :
    after ({ s0 with a := 0x55#8 })
      [0x49#8, 0x55#8] []
      (fun t => decide (t.a = 0x00#8 ∧ t.p.toByte = 0x36#8 ∧ t.pc = 0x8002#16)) = true := by
  decide

/-- V-SR-1: ASL A. -/
theorem test_step_V_SR_1 :
    after ({ s0 with a := 0x81#8 })
      [0x0A#8] []
      (fun t => decide (t.a = 0x02#8 ∧ t.p.toByte = 0x35#8 ∧ t.pc = 0x8001#16)) = true := by
  decide

/-- V-SR-2: ASL A. -/
theorem test_step_V_SR_2 :
    after ({ s0 with a := 0x80#8 })
      [0x0A#8] []
      (fun t => decide (t.a = 0x00#8 ∧ t.p.toByte = 0x37#8 ∧ t.pc = 0x8001#16)) = true := by
  decide

/-- V-SR-3: ASL $10: read then one write. -/
theorem test_step_V_SR_3 :
    after (s0)
      [0x06#8, 0x10#8] [(0x0010#16, 0x40#8)]
      (fun t => decide (t.p.toByte = 0xB4#8 ∧ t.pc = 0x8002#16 ∧ t.cell 0x0010#16 = 0x80#8)) = true := by
  decide

/-- V-SR-4: LSR $10. -/
theorem test_step_V_SR_4 :
    after (s0)
      [0x46#8, 0x10#8] [(0x0010#16, 0x02#8)]
      (fun t => decide (t.p.toByte = 0x34#8 ∧ t.pc = 0x8002#16 ∧ t.cell 0x0010#16 = 0x01#8)) = true := by
  decide

/-- V-SR-5: LSR A. -/
theorem test_step_V_SR_5 :
    after ({ s0 with a := 0x01#8 })
      [0x4A#8] []
      (fun t => decide (t.a = 0x00#8 ∧ t.p.toByte = 0x37#8 ∧ t.pc = 0x8001#16)) = true := by
  decide

/-- V-SR-6: LSR A: N always cleared. -/
theorem test_step_V_SR_6 :
    after ({ s0 with a := 0xFF#8, p := statusOf 0xB4#8 })
      [0x4A#8] []
      (fun t => decide (t.a = 0x7F#8 ∧ t.p.toByte = 0x35#8 ∧ t.pc = 0x8001#16)) = true := by
  decide

/-- V-SR-7: ROL A. -/
theorem test_step_V_SR_7 :
    after ({ s0 with a := 0x40#8, p := statusOf 0x35#8 })
      [0x2A#8] []
      (fun t => decide (t.a = 0x81#8 ∧ t.p.toByte = 0xB4#8 ∧ t.pc = 0x8001#16)) = true := by
  decide

/-- V-SR-8: ROL A. -/
theorem test_step_V_SR_8 :
    after ({ s0 with a := 0x80#8, p := statusOf 0x34#8 })
      [0x2A#8] []
      (fun t => decide (t.a = 0x00#8 ∧ t.p.toByte = 0x37#8 ∧ t.pc = 0x8001#16)) = true := by
  decide

/-- V-SR-9: ROR $0200. -/
theorem test_step_V_SR_9 :
    after (s0)
      [0x6E#8, 0x00#8, 0x02#8] [(0x0200#16, 0x03#8)]
      (fun t => decide (t.p.toByte = 0x35#8 ∧ t.pc = 0x8003#16 ∧ t.cell 0x0200#16 = 0x01#8)) = true := by
  decide

/-- V-SR-10: ROR A. -/
theorem test_step_V_SR_10 :
    after ({ s0 with a := 0x00#8, p := statusOf 0x35#8 })
      [0x6A#8] []
      (fun t => decide (t.a = 0x80#8 ∧ t.p.toByte = 0xB4#8 ∧ t.pc = 0x8001#16)) = true := by
  decide

/-- V-SR-11: ROL $10,X: EA 0x0005 (default wrap). -/
theorem test_step_V_SR_11 :
    after ({ s0 with x := 0xF5#8, p := statusOf 0x35#8 })
      [0x36#8, 0x10#8] [(0x0005#16, 0x7F#8)]
      (fun t => decide (t.p.toByte = 0xB4#8 ∧ t.pc = 0x8002#16 ∧ t.cell 0x0005#16 = 0xFF#8)) = true := by
  decide

/-- V-SR-12: ASL $4000: read faults; nothing written. -/
theorem test_step_V_SR_12 :
    after (s0)
      [0x0E#8, 0x00#8, 0x40#8] []
      (fun t => decide (t.p.toByte = 0x34#8 ∧ t.pc = 0x8003#16 ∧ t.stepResult = .fault (.busFault 0x4000#16 .read))) = true := by
  decide

/-- V-CB-1: CMP #$20: §8 example. -/
theorem test_step_V_CB_1 :
    after ({ s0 with a := 0x10#8 })
      [0xC9#8, 0x20#8] []
      (fun t => decide (t.p.toByte = 0xB4#8 ∧ t.pc = 0x8002#16)) = true := by
  decide

/-- V-CB-5: CMP #$FF: V untouched. -/
theorem test_step_V_CB_5 :
    after ({ s0 with a := 0x7F#8, p := statusOf 0x74#8 })
      [0xC9#8, 0xFF#8] []
      (fun t => decide (t.p.toByte = 0xF4#8 ∧ t.pc = 0x8002#16)) = true := by
  decide

/-- V-CB-6: CPX #$04. -/
theorem test_step_V_CB_6 :
    after ({ s0 with x := 0x05#8 })
      [0xE0#8, 0x04#8] []
      (fun t => decide (t.p.toByte = 0x35#8 ∧ t.pc = 0x8002#16)) = true := by
  decide

/-- V-CB-7: CPX $10. -/
theorem test_step_V_CB_7 :
    after ({ s0 with x := 0x33#8 })
      [0xE4#8, 0x10#8] [(0x0010#16, 0x33#8)]
      (fun t => decide (t.p.toByte = 0x37#8 ∧ t.pc = 0x8002#16)) = true := by
  decide

/-- V-CB-8: CPY #$01. -/
theorem test_step_V_CB_8 :
    after ({ s0 with y := 0x00#8 })
      [0xC0#8, 0x01#8] []
      (fun t => decide (t.p.toByte = 0xB4#8 ∧ t.pc = 0x8002#16)) = true := by
  decide

/-- V-CB-9: CPY $0300. -/
theorem test_step_V_CB_9 :
    after ({ s0 with y := 0x90#8 })
      [0xCC#8, 0x00#8, 0x03#8] [(0x0300#16, 0x10#8)]
      (fun t => decide (t.p.toByte = 0xB5#8 ∧ t.pc = 0x8003#16)) = true := by
  decide

/-- V-CB-10: BIT $10. -/
theorem test_step_V_CB_10 :
    after ({ s0 with a := 0x0F#8 })
      [0x24#8, 0x10#8] [(0x0010#16, 0xC0#8)]
      (fun t => decide (t.p.toByte = 0xF6#8 ∧ t.pc = 0x8002#16)) = true := by
  decide

/-- V-CB-11: BIT $10: clears V from bit 6 = 0. -/
theorem test_step_V_CB_11 :
    after ({ s0 with a := 0x01#8, p := statusOf 0x74#8 })
      [0x24#8, 0x10#8] [(0x0010#16, 0x01#8)]
      (fun t => decide (t.p.toByte = 0x34#8 ∧ t.pc = 0x8002#16)) = true := by
  decide

/-- V-CB-12: BIT $2002. -/
theorem test_step_V_CB_12 :
    after ({ s0 with a := 0xFF#8 })
      [0x2C#8, 0x02#8, 0x20#8] [(0x2002#16, 0x80#8)]
      (fun t => decide (t.p.toByte = 0xB4#8 ∧ t.pc = 0x8003#16)) = true := by
  decide

/-- V-BJ-1: BCC *+$10: taken. -/
theorem test_step_V_BJ_1 :
    after (s0)
      [0x90#8, 0x0E#8] []
      (fun t => decide (t.p.toByte = 0x34#8 ∧ t.pc = 0x8010#16)) = true := by
  decide

/-- V-BJ-2: BCS *+$10: not taken: pc0+2. -/
theorem test_step_V_BJ_2 :
    after (s0)
      [0xB0#8, 0x0E#8] []
      (fun t => decide (t.p.toByte = 0x34#8 ∧ t.pc = 0x8002#16)) = true := by
  decide

/-- V-BJ-3: BCS *+$10: taken. -/
theorem test_step_V_BJ_3 :
    after ({ s0 with p := statusOf 0x35#8 })
      [0xB0#8, 0x0E#8] []
      (fun t => decide (t.p.toByte = 0x35#8 ∧ t.pc = 0x8010#16)) = true := by
  decide

/-- V-BJ-4: BEQ * (to pc0): branch to itself. -/
theorem test_step_V_BJ_4 :
    after ({ s0 with p := statusOf 0x36#8 })
      [0xF0#8, 0xFE#8] []
      (fun t => decide (t.p.toByte = 0x36#8 ∧ t.pc = 0x8000#16)) = true := by
  decide

/-- V-BJ-5: BEQ *+4: not taken. -/
theorem test_step_V_BJ_5 :
    after (s0)
      [0xF0#8, 0x02#8] []
      (fun t => decide (t.p.toByte = 0x34#8 ∧ t.pc = 0x8002#16)) = true := by
  decide

/-- V-BJ-7: BNE *+4: not taken. -/
theorem test_step_V_BJ_7 :
    after ({ s0 with p := statusOf 0x36#8 })
      [0xD0#8, 0x02#8] []
      (fun t => decide (t.p.toByte = 0x36#8 ∧ t.pc = 0x8002#16)) = true := by
  decide

/-- V-BJ-14: BNE $0071: target wraps mod 65536. -/
theorem test_step_V_BJ_14 :
    after ({ s0 with pc := 0xFFF0#16 })
      [0xD0#8, 0x7F#8] []
      (fun t => decide (t.p.toByte = 0x34#8 ∧ t.pc = 0x0071#16)) = true := by
  decide

/-- V-BJ-8: BMI *-126: largest backward displacement. -/
theorem test_step_V_BJ_8 :
    after ({ s0 with p := statusOf 0xB4#8 })
      [0x30#8, 0x80#8] []
      (fun t => decide (t.p.toByte = 0xB4#8 ∧ t.pc = 0x7F82#16)) = true := by
  decide

/-- V-BJ-9: BPL *+129: largest forward displacement. -/
theorem test_step_V_BJ_9 :
    after (s0)
      [0x10#8, 0x7F#8] []
      (fun t => decide (t.p.toByte = 0x34#8 ∧ t.pc = 0x8081#16)) = true := by
  decide

/-- V-BJ-10: BPL *+129: not taken. -/
theorem test_step_V_BJ_10 :
    after ({ s0 with p := statusOf 0xB4#8 })
      [0x10#8, 0x7F#8] []
      (fun t => decide (t.p.toByte = 0xB4#8 ∧ t.pc = 0x8002#16)) = true := by
  decide

/-- V-BJ-11: BVC *+$12: not taken. -/
theorem test_step_V_BJ_11 :
    after ({ s0 with p := statusOf 0x74#8 })
      [0x50#8, 0x10#8] []
      (fun t => decide (t.p.toByte = 0x74#8 ∧ t.pc = 0x8002#16)) = true := by
  decide

/-- V-BJ-12: BVC *+$12: taken. -/
theorem test_step_V_BJ_12 :
    after (s0)
      [0x50#8, 0x10#8] []
      (fun t => decide (t.p.toByte = 0x34#8 ∧ t.pc = 0x8012#16)) = true := by
  decide

/-- V-BJ-13: BVS *+$12: taken. -/
theorem test_step_V_BJ_13 :
    after ({ s0 with p := statusOf 0x74#8 })
      [0x70#8, 0x10#8] []
      (fun t => decide (t.p.toByte = 0x74#8 ∧ t.pc = 0x8012#16)) = true := by
  decide

/-- V-BJ-15: JMP $1234. -/
theorem test_step_V_BJ_15 :
    after (s0)
      [0x4C#8, 0x34#8, 0x12#8] []
      (fun t => decide (t.p.toByte = 0x34#8 ∧ t.pc = 0x1234#16)) = true := by
  decide

/-- V-BJ-19: JMP $4000: the jump itself succeeds; the next step's opcode fetch faults with PC = 0x4000. -/
theorem test_step_V_BJ_19 :
    after (s0)
      [0x4C#8, 0x00#8, 0x40#8] []
      (fun t => decide (t.p.toByte = 0x34#8 ∧ t.pc = 0x4000#16)) = true := by
  decide

/-- V-BJ-18: JMP ($02FF): high byte from 0x0200. -/
theorem test_step_V_BJ_18 :
    after ({ s0 with params := { Params.default with read16PageWrap := true } })
      [0x6C#8, 0xFF#8, 0x02#8] [(0x02FF#16, 0x34#8), (0x0300#16, 0x12#8), (0x0200#16, 0x56#8)]
      (fun t => decide (t.p.toByte = 0x34#8 ∧ t.pc = 0x5634#16)) = true := by
  decide

/-- V-MM-8: JMP ($FFFF): read16(0xFFFF): high byte from 0x0000 (default). -/
theorem test_step_V_MM_8 :
    after (s0)
      [0x6C#8, 0xFF#8, 0xFF#8] [(0xFFFF#16, 0x34#8), (0x0000#16, 0x12#8), (0xFF00#16, 0x56#8)]
      (fun t => decide (t.p.toByte = 0x34#8 ∧ t.pc = 0x1234#16)) = true := by
  decide

/-- V-ST-1: PHA. -/
theorem test_step_V_ST_1 :
    after ({ s0 with a := 0x37#8, sp := 0xFB#8 })
      [0x48#8] []
      (fun t => decide (t.sp = 0xFA#8 ∧ t.p.toByte = 0x34#8 ∧ t.pc = 0x8001#16 ∧ t.cell 0x01FB#16 = 0x37#8)) = true := by
  decide

/-- V-ST-2: PHA: SP wraps to 0xFF (D2). -/
theorem test_step_V_ST_2 :
    after ({ s0 with a := 0x37#8, sp := 0x00#8 })
      [0x48#8] []
      (fun t => decide (t.sp = 0xFF#8 ∧ t.p.toByte = 0x34#8 ∧ t.pc = 0x8001#16 ∧ t.cell 0x0100#16 = 0x37#8)) = true := by
  decide

/-- V-ST-3: PHP: bits 4 and 5 set in the pushed byte. -/
theorem test_step_V_ST_3 :
    after ({ s0 with p := statusOf 0x35#8 })
      [0x08#8] []
      (fun t => decide (t.sp = 0xFC#8 ∧ t.p.toByte = 0x35#8 ∧ t.pc = 0x8001#16 ∧ t.cell 0x01FD#16 = 0x35#8)) = true := by
  decide

/-- V-ST-4: PHP. -/
theorem test_step_V_ST_4 :
    after ({ s0 with p := statusOf 0xFF#8 })
      [0x08#8] []
      (fun t => decide (t.sp = 0xFC#8 ∧ t.p.toByte = 0xFF#8 ∧ t.pc = 0x8001#16 ∧ t.cell 0x01FD#16 = 0xFF#8)) = true := by
  decide

/-- V-ST-5: PLA. -/
theorem test_step_V_ST_5 :
    after ({ s0 with sp := 0xFA#8 })
      [0x68#8] [(0x01FB#16, 0x37#8)]
      (fun t => decide (t.a = 0x37#8 ∧ t.sp = 0xFB#8 ∧ t.p.toByte = 0x34#8 ∧ t.pc = 0x8001#16)) = true := by
  decide

/-- V-ST-7: PLA. -/
theorem test_step_V_ST_7 :
    after ({ s0 with sp := 0xFC#8 })
      [0x68#8] [(0x01FD#16, 0x00#8)]
      (fun t => decide (t.sp = 0xFD#8 ∧ t.p.toByte = 0x36#8 ∧ t.pc = 0x8001#16)) = true := by
  decide

/-- V-ST-8: PLP. -/
theorem test_step_V_ST_8 :
    after ({ s0 with sp := 0xFC#8 })
      [0x28#8] [(0x01FD#16, 0xC3#8)]
      (fun t => decide (t.sp = 0xFD#8 ∧ t.p.toByte = 0xF3#8 ∧ t.pc = 0x8001#16)) = true := by
  decide

/-- V-ST-10: PLP. -/
theorem test_step_V_ST_10 :
    after ({ s0 with sp := 0xFC#8, p := statusOf 0xFF#8 })
      [0x28#8] [(0x01FD#16, 0xCF#8)]
      (fun t => decide (t.sp = 0xFD#8 ∧ t.p.toByte = 0xFF#8 ∧ t.pc = 0x8001#16)) = true := by
  decide

/-- V-ST-11: JSR $8010: pushes 0x8004 = PC-1, high byte first. -/
theorem test_step_V_ST_11 :
    after ({ s0 with pc := 0x8002#16 })
      [0x20#8, 0x10#8, 0x80#8] []
      (fun t => decide (t.sp = 0xFB#8 ∧ t.p.toByte = 0x34#8 ∧ t.pc = 0x8010#16 ∧ t.cell 0x01FD#16 = 0x80#8 ∧ t.cell 0x01FC#16 = 0x04#8)) = true := by
  decide

/-- V-ST-12: JSR $0000 with pc0 = 0xFFFD: operand bytes at 0xFFFE and 0xFFFF; PC after the fetch wraps to 0x0000, so PC-1 = 0xFFFF is pushed. -/
theorem test_step_V_ST_12 :
    after ({ s0 with pc := 0xFFFD#16 })
      [0x20#8, 0x00#8] []
      (fun t => decide (t.sp = 0xFB#8 ∧ t.p.toByte = 0x34#8 ∧ t.pc = 0x0000#16 ∧ t.cell 0x01FD#16 = 0xFF#8 ∧ t.cell 0x01FC#16 = 0xFF#8)) = true := by
  decide

/-- V-ST-13: RTS: pulled 0x8004, +1. -/
theorem test_step_V_ST_13 :
    after ({ s0 with sp := 0xFB#8 })
      [0x60#8] [(0x01FC#16, 0x04#8), (0x01FD#16, 0x80#8)]
      (fun t => decide (t.sp = 0xFD#8 ∧ t.p.toByte = 0x34#8 ∧ t.pc = 0x8005#16)) = true := by
  decide

/-- V-ST-14: RTS: 0xFFFF + 1 wraps to 0x0000. -/
theorem test_step_V_ST_14 :
    after ({ s0 with sp := 0xFB#8 })
      [0x60#8] [(0x01FC#16, 0xFF#8), (0x01FD#16, 0xFF#8)]
      (fun t => decide (t.sp = 0xFD#8 ∧ t.p.toByte = 0x34#8 ∧ t.pc = 0x0000#16)) = true := by
  decide

/-- V-ST-15: RTI. -/
theorem test_step_V_ST_15 :
    after ({ s0 with sp := 0xFA#8 })
      [0x40#8] [(0x01FB#16, 0x01#8), (0x01FC#16, 0x00#8), (0x01FD#16, 0x90#8)]
      (fun t => decide (t.sp = 0xFD#8 ∧ t.p.toByte = 0x31#8 ∧ t.pc = 0x9000#16)) = true := by
  decide

/-- V-ST-16: RTI: pulls wrap from 0x01FF to 0x0100. -/
theorem test_step_V_ST_16 :
    after ({ s0 with sp := 0xFE#8 })
      [0x40#8] [(0x01FF#16, 0xC0#8), (0x0100#16, 0x34#8), (0x0101#16, 0x12#8)]
      (fun t => decide (t.sp = 0x01#8 ∧ t.p.toByte = 0xF0#8 ∧ t.pc = 0x1234#16)) = true := by
  decide

/-- V-ST-18: BRK: push at 0x0100; SP wraps; I set after the push. -/
theorem test_step_V_ST_18 :
    after ({ s0 with sp := 0x00#8, p := statusOf 0xF3#8 })
      [0x00#8] []
      (fun t => decide (t.sp = 0xFF#8 ∧ t.p.toByte = 0xF7#8 ∧ t.pc = 0x8001#16 ∧ t.stepResult = .haltedBreakSignal ∧ t.cell 0x0100#16 = 0xF3#8)) = true := by
  decide

/-- V-ST-19: BRK: pushed byte 0x30 has I clear; P.I set afterwards. -/
theorem test_step_V_ST_19 :
    after ({ s0 with p := statusOf 0x30#8 })
      [0x00#8] []
      (fun t => decide (t.sp = 0xFC#8 ∧ t.p.toByte = 0x34#8 ∧ t.pc = 0x8001#16 ∧ t.stepResult = .haltedBreakSignal ∧ t.cell 0x01FD#16 = 0x30#8)) = true := by
  decide

/-- V-TI-1: TAX. -/
theorem test_step_V_TI_1 :
    after ({ s0 with a := 0x80#8 })
      [0xAA#8] []
      (fun t => decide (t.x = 0x80#8 ∧ t.p.toByte = 0xB4#8 ∧ t.pc = 0x8001#16)) = true := by
  decide

/-- V-TI-2: TAY. -/
theorem test_step_V_TI_2 :
    after ({ s0 with a := 0x00#8, y := 0x12#8 })
      [0xA8#8] []
      (fun t => decide (t.y = 0x00#8 ∧ t.p.toByte = 0x36#8 ∧ t.pc = 0x8001#16)) = true := by
  decide

/-- V-TI-3: TXA. -/
theorem test_step_V_TI_3 :
    after ({ s0 with x := 0x7F#8 })
      [0x8A#8] []
      (fun t => decide (t.a = 0x7F#8 ∧ t.p.toByte = 0x34#8 ∧ t.pc = 0x8001#16)) = true := by
  decide

/-- V-TI-4: TYA. -/
theorem test_step_V_TI_4 :
    after ({ s0 with y := 0xFF#8 })
      [0x98#8] []
      (fun t => decide (t.a = 0xFF#8 ∧ t.p.toByte = 0xB4#8 ∧ t.pc = 0x8001#16)) = true := by
  decide

/-- V-TI-5: TSX. -/
theorem test_step_V_TI_5 :
    after (s0)
      [0xBA#8] []
      (fun t => decide (t.x = 0xFD#8 ∧ t.p.toByte = 0xB4#8 ∧ t.pc = 0x8001#16)) = true := by
  decide

/-- V-TI-6: TSX. -/
theorem test_step_V_TI_6 :
    after ({ s0 with sp := 0x00#8 })
      [0xBA#8] []
      (fun t => decide (t.p.toByte = 0x36#8 ∧ t.pc = 0x8001#16)) = true := by
  decide

/-- V-TI-7: TXS: no flags change. -/
theorem test_step_V_TI_7 :
    after ({ s0 with x := 0x00#8 })
      [0x9A#8] []
      (fun t => decide (t.sp = 0x00#8 ∧ t.p.toByte = 0x34#8 ∧ t.pc = 0x8001#16)) = true := by
  decide

/-- V-TI-8: TXS: no flags change. -/
theorem test_step_V_TI_8 :
    after ({ s0 with x := 0x80#8, p := statusOf 0x36#8 })
      [0x9A#8] []
      (fun t => decide (t.sp = 0x80#8 ∧ t.p.toByte = 0x36#8 ∧ t.pc = 0x8001#16)) = true := by
  decide

/-- V-TI-9: INX. -/
theorem test_step_V_TI_9 :
    after ({ s0 with x := 0xFF#8 })
      [0xE8#8] []
      (fun t => decide (t.x = 0x00#8 ∧ t.p.toByte = 0x36#8 ∧ t.pc = 0x8001#16)) = true := by
  decide

/-- V-TI-10: INY. -/
theorem test_step_V_TI_10 :
    after ({ s0 with y := 0x7F#8 })
      [0xC8#8] []
      (fun t => decide (t.y = 0x80#8 ∧ t.p.toByte = 0xB4#8 ∧ t.pc = 0x8001#16)) = true := by
  decide

/-- V-TI-11: DEX. -/
theorem test_step_V_TI_11 :
    after ({ s0 with x := 0x00#8 })
      [0xCA#8] []
      (fun t => decide (t.x = 0xFF#8 ∧ t.p.toByte = 0xB4#8 ∧ t.pc = 0x8001#16)) = true := by
  decide

/-- V-TI-12: DEY. -/
theorem test_step_V_TI_12 :
    after ({ s0 with y := 0x01#8 })
      [0x88#8] []
      (fun t => decide (t.y = 0x00#8 ∧ t.p.toByte = 0x36#8 ∧ t.pc = 0x8001#16)) = true := by
  decide

/-- V-TI-13: INC $10. -/
theorem test_step_V_TI_13 :
    after (s0)
      [0xE6#8, 0x10#8] [(0x0010#16, 0x7F#8)]
      (fun t => decide (t.p.toByte = 0xB4#8 ∧ t.pc = 0x8002#16 ∧ t.cell 0x0010#16 = 0x80#8)) = true := by
  decide

/-- V-TI-14: INC $10: C untouched. -/
theorem test_step_V_TI_14 :
    after (s0)
      [0xE6#8, 0x10#8] [(0x0010#16, 0xFF#8)]
      (fun t => decide (t.p.toByte = 0x36#8 ∧ t.pc = 0x8002#16 ∧ t.cell 0x0010#16 = 0x00#8)) = true := by
  decide

/-- V-TI-15: INC $2003: I/O read, then one write. -/
theorem test_step_V_TI_15 :
    after (s0)
      [0xEE#8, 0x03#8, 0x20#8] [(0x2003#16, 0x41#8)]
      (fun t => decide (t.p.toByte = 0x34#8 ∧ t.pc = 0x8003#16 ∧ t.cell 0x2003#16 = 0x42#8)) = true := by
  decide

/-- V-TI-18: INC $4000: read faults. -/
theorem test_step_V_TI_18 :
    after (s0)
      [0xEE#8, 0x00#8, 0x40#8] []
      (fun t => decide (t.p.toByte = 0x34#8 ∧ t.pc = 0x8003#16 ∧ t.stepResult = .fault (.busFault 0x4000#16 .read))) = true := by
  decide

/-- V-TI-16: DEC $0300. -/
theorem test_step_V_TI_16 :
    after (s0)
      [0xCE#8, 0x00#8, 0x03#8] []
      (fun t => decide (t.p.toByte = 0xB4#8 ∧ t.pc = 0x8003#16 ∧ t.cell 0x0300#16 = 0xFF#8)) = true := by
  decide

/-- V-TI-17: DEC $FF,X: EA 0x0001. -/
theorem test_step_V_TI_17 :
    after ({ s0 with x := 0x02#8 })
      [0xD6#8, 0xFF#8] [(0x0001#16, 0x01#8)]
      (fun t => decide (t.p.toByte = 0x36#8 ∧ t.pc = 0x8002#16 ∧ t.cell 0x0001#16 = 0x00#8)) = true := by
  decide

/-- V-TI-19: CLC. -/
theorem test_step_V_TI_19 :
    after ({ s0 with p := statusOf 0x35#8 })
      [0x18#8] []
      (fun t => decide (t.p.toByte = 0x34#8 ∧ t.pc = 0x8001#16)) = true := by
  decide

/-- V-TI-20: SEC. -/
theorem test_step_V_TI_20 :
    after (s0)
      [0x38#8] []
      (fun t => decide (t.p.toByte = 0x35#8 ∧ t.pc = 0x8001#16)) = true := by
  decide

/-- V-TI-21: CLI. -/
theorem test_step_V_TI_21 :
    after (s0)
      [0x58#8] []
      (fun t => decide (t.p.toByte = 0x30#8 ∧ t.pc = 0x8001#16)) = true := by
  decide

/-- V-TI-22: SEI. -/
theorem test_step_V_TI_22 :
    after ({ s0 with p := statusOf 0x30#8 })
      [0x78#8] []
      (fun t => decide (t.p.toByte = 0x34#8 ∧ t.pc = 0x8001#16)) = true := by
  decide

/-- V-TI-23: CLV. -/
theorem test_step_V_TI_23 :
    after ({ s0 with p := statusOf 0x74#8 })
      [0xB8#8] []
      (fun t => decide (t.p.toByte = 0x34#8 ∧ t.pc = 0x8001#16)) = true := by
  decide

/-- V-TI-24: CLD. -/
theorem test_step_V_TI_24 :
    after ({ s0 with p := statusOf 0x3C#8 })
      [0xD8#8] []
      (fun t => decide (t.p.toByte = 0x34#8 ∧ t.pc = 0x8001#16)) = true := by
  decide

/-- V-TI-25: SED. -/
theorem test_step_V_TI_25 :
    after (s0)
      [0xF8#8] []
      (fun t => decide (t.p.toByte = 0x3C#8 ∧ t.pc = 0x8001#16)) = true := by
  decide

/-- V-TI-26: NOP: nothing but PC changes. -/
theorem test_step_V_TI_26 :
    after ({ s0 with a := 0x12#8, p := statusOf 0xF7#8 })
      [0xEA#8] []
      (fun t => decide (t.p.toByte = 0xF7#8 ∧ t.pc = 0x8001#16)) = true := by
  decide

/-- V-EX-1: illegal byte 02: state unchanged, PC at the opcode. -/
theorem test_step_V_EX_1 :
    after ({ s0 with a := 0x12#8 })
      [0x02#8, 0xAA#8, 0xBB#8] []
      (fun t => decide (t.p.toByte = 0x34#8 ∧ t.pc = 0x8000#16 ∧ t.stepResult = .fault (.invalidOpcode 0x02#8 0x8000#16))) = true := by
  decide

/-- V-EX-14: first step with PC = 0x4000: fetch faults; PC stays 0x4000. -/
theorem test_step_V_EX_14 :
    after ({ s0 with pc := 0x4000#16 })
      [] []
      (fun t => decide (t.p.toByte = 0x34#8 ∧ t.pc = 0x4000#16 ∧ t.stepResult = .fault (.busFault 0x4000#16 .read))) = true := by
  decide

/-- V-MM-10: STA $2000,X: 0x200A is a mirror of 0x2002. -/
theorem test_step_V_MM_10 :
    after ({ s0 with a := 0x0B#8, x := 0x0A#8 })
      [0x9D#8, 0x00#8, 0x20#8] []
      (fun t => decide (t.p.toByte = 0x34#8 ∧ t.pc = 0x8003#16 ∧ t.cell 0x200A#16 = 0x0B#8)) = true := by
  decide

/-! ### States that meet the statements' hypotheses -/

/-- An answer whose check passes is a next state. -/
theorem exists_of_endsIn {o : Answer} {c : State → Bool} (h : endsIn o c = true) :
    ∃ t, o = .next t ∧ c t = true := by
  cases o with
  | next t => exact ⟨t, rfl, h⟩
  | fault f => cases h
  | refused r => cases h

/-- An answer that is a next state. -/
theorem exists_next {o : Answer} (h : endsIn o (fun _ => true) = true) : ∃ t, o = .next t := by
  obtain ⟨t, ht, _⟩ := exists_of_endsIn h
  exact ⟨t, ht⟩

/-- A bus with nothing attached. -/
def noBus : State := { s0 with attach := [], mirrors := [] }

/-- A bus with one attached address. -/
def oneCell (a : Nat) : State :=
  { s0 with attach := [{ range := { lo := a, hi := a + 1 }, target := .ram }], mirrors := [] }

/-- A bus whose whole space is one external target. -/
def outside : State :=
  { s0 with
    attach := [{ range := { lo := 0x0000, hi := 0x10000 }, target := .external 7 }], mirrors := [] }

/-- The default map with the mirror of a 16 KB image. -/
def map16 : State :=
  { s0 with
    mirrors := [ { lo := 0x2008, canon := 0x2000, len := 0x0008, count := 1023 },
      { lo := 0xC000, canon := 0x8000, len := 0x4000, count := 1 },
      { lo := 0x0800, canon := 0x0000, len := 0x0800, count := 3 } ] }

/-- Decimal mode under the refusing policy. -/
def refusing : State :=
  { s0 with p := { s0.p with d := true }, params := { Params.default with decimal := .refuse } }

/-- A pointer in the zero page to an unattached address. -/
def badPointer : State := put s0 [(0x0040#16, 0x00#8), (0x0041#16, 0x40#8)]

theorem test_meets_DefaultMap : DefaultMap s0 ∧ DefaultMap map16 :=
  ⟨⟨rfl, .inl rfl⟩, rfl, .inr ⟨_, _, rfl, rfl⟩⟩

theorem test_meets_DefaultMirrors :
    s0.canon 0x07FF#16 = 0x07FF#16 ∧ s0.canon 0x0800#16 = 0x0000#16 ∧
    s0.canon 0x1FFF#16 = 0x07FF#16 ∧ s0.canon 0x2000#16 = 0x2000#16 ∧
    s0.canon 0x2007#16 = 0x2007#16 ∧ s0.canon 0x2008#16 = 0x2000#16 ∧
    s0.canon 0x3FFF#16 = 0x2007#16 ∧ s0.canon 0x4000#16 = 0x4000#16 := by decide

theorem test_meets_DefaultMirrors_16k :
    map16.canon 0xBFFF#16 = 0xBFFF#16 ∧ map16.canon 0xC000#16 = 0x8000#16 ∧
    map16.canon 0xFFFF#16 = 0xBFFF#16 ∧ s0.canon 0xC000#16 = 0xC000#16 := by decide

/-! A launch that raises nothing, on a bus that is RAM throughout. -/

/-- The whole space as one RAM block. -/
def ramEverywhere : List Attachment :=
  [{ range := { lo := 0x0000, hi := 0x10000 }, target := .ram }]

theorem owner_ramEverywhere (c : Word) : owner ramEverywhere c = some .ram := by
  have h : (0 ≤ c.toNat ∧ c.toNat < 0x10000) := ⟨Nat.zero_le _, c.isLt⟩
  simp only [ramEverywhere, owner]
  rw [if_pos h]

/-- Zeros written to empty RAM leave it empty. -/
theorem memWrite_zero {s : State} (h : s.attach = ramEverywhere) (hm : s.mem = []) (a : Word) :
    memWrite a 0x00#8 s = .ok () s := by
  have ht : s.target a = some .ram := by
    unfold State.target; rw [h]; exact owner_ramEverywhere _
  have e : s.setMem [] = s := by rw [← hm]; rfl
  simp only [memWrite, ht, targetWrite, hm, Memory.write]
  exact congrArg _ e

theorem writeBlock_zero {s : State} (h : s.attach = ramEverywhere) (hm : s.mem = []) (n a : Nat) :
    writeBlock a (List.replicate n 0x00#8) s = .ok () s := by
  induction n generalizing a with
  | zero => rfl
  | succ n ih => rw [List.replicate_succ, writeBlock, memWrite_zero h hm, Acc.bind_ok, ih]

theorem zeroBlock_zero {s : State} (h : s.attach = ramEverywhere) (hm : s.mem = []) (n a : Nat) :
    zeroBlock a n s = .ok () s := by
  induction n generalizing a with
  | zero => rfl
  | succ n ih => rw [zeroBlock, memWrite_zero h hm, Acc.bind_ok, ih]

/-- The mirrors of setup are accepted (R64, R65). -/
theorem test_ram_mirrors :
    mirrorRanges { lo := 0x0000, hi := 0x0800 } ramMirrorRanges [] =
      .ok [{ lo := 0x0800, canon := 0x0000, len := 0x0800, count := 3 }] := by decide

theorem test_io_mirrors :
    mirrorRanges { lo := 0x2000, hi := 0x2008 } ioMirrorRanges
      [{ lo := 0x0800, canon := 0x0000, len := 0x0800, count := 3 }] =
      .ok State.reset.mirrors := by decide +kernel

/-- Setup of an image that leaves empty RAM empty. -/
theorem launch_of_zeros {image : List Byte} (hl : image.length = 32768)
    (hw : ∀ s : State, s.attach = ramEverywhere → s.mem = [] →
      writeBlock 0x8000 image s = .ok () s) :
    launch Params.default ramEverywhere [] image State.reset =
      .next { State.reset with attach := ramEverywhere } := by
  have hi : Config.imageWf image = true := by unfold Config.imageWf; rw [hl]; rfl
  rw [launch, show freshBus Params.default ramEverywhere [] State.reset =
    .ok { State.reset with attach := ramEverywhere, mirrors := [] } from rfl]
  simp only [setup, hi]
  rw [if_neg (by decide), if_neg (by decide), if_neg (by decide), setupSteps, withMirrors,
    test_ram_mirrors]
  simp only
  rw [hw _ rfl rfl, afterAccess, prgMirror, if_neg (by rw [hl]; decide), withMirrors,
    show (State.setMirrors { State.reset with attach := ramEverywhere, mirrors := [] }
      [{ lo := 0x0800, canon := 0x0000, len := 0x0800, count := 3 }]).mirrors =
      [{ lo := 0x0800, canon := 0x0000, len := 0x0800, count := 3 }] from rfl, test_io_mirrors]
  simp only
  rw [zeroBlock_zero rfl rfl]
  rfl

theorem test_meets_LaunchSetsRegisters : ∃ s, CleanLaunch s :=
  ⟨_, Params.default, ramEverywhere, [], List.replicate 32768 0x00#8, State.reset,
    launch_of_zeros List.length_replicate fun _ h hm => writeBlock_zero h hm _ _, rfl⟩

theorem test_meets_LaunchOnDefaultMap :
    Config.imageWf (List.replicate 16384 0xEA#8) = true ∧
    ∀ c ∈ ([(0x0005, 3#8), (0x1FFF, 4#8), (0x2008, 5#8)] : Memory),
      ¬ (0x2000 ≤ c.1 % 0x10000 ∧ c.1 % 0x10000 < 0x2008) :=
  ⟨by unfold Config.imageWf; rw [List.length_replicate]; rfl, by decide⟩

theorem test_meets_SetupRefusals :
    s0.mirrors ≠ [] ∧
    (∃ s : State, ∃ c, s.mirrors = [] ∧ c ∈ s.mem ∧
      owner s.attach (BitVec.ofNat 16 c.1) = some .io) ∧
    ∃ (s : State) (image : List Byte), s.mirrors = [] ∧
      (∀ c ∈ s.mem, owner s.attach (BitVec.ofNat 16 c.1) ≠ some .io) ∧
      image.length ≠ 16384 ∧ image.length ≠ 32768 :=
  ⟨by decide, ⟨{ s0 with mirrors := [], mem := [(0x2007, 1#8)] }, (0x2007, 1#8), by decide⟩,
    { s0 with mirrors := [] }, [], by decide⟩

/-! Decoding and fetch -/

theorem test_meets_DecodedBytesAreEncoded :
    decode [0x4C#8, 0x00#8, 0x80#8, 0xFF#8] = .ok (.jmpAbs 0x8000#16, [0xFF#8]) := by decide

theorem test_truncated_words_refused :
    decode [] = .error .empty ∧ decode [0xA9#8] = .error (.truncated 0xA9#8) ∧
    decode [0x4C#8, 0x00#8] = .error (.truncated 0x4C#8) ∧
    decode [0xFF#8, 0x00#8] = .error (.illegalOpcode 0xFF#8) := by decide

theorem test_meets_StepRunsDecoded :
    ∃ t, s0.run = .running ∧ decode [0xEA#8] = .ok (.nop, []) ∧
      Fetches [0xEA#8] (put s0 [(0x8000#16, 0xEA#8)]) t :=
  ⟨_, rfl, by decide, by decide, by decide, rfl⟩

theorem test_meets_StepRunsDecoded_two :
    ∃ t, decode [0xA9#8, 0x10#8] = .ok (.ldaImm 0x10#8, []) ∧
      Fetches [0xA9#8, 0x10#8] (put s0 [(0x8000#16, 0xA9#8), (0x8001#16, 0x10#8)]) t :=
  ⟨_, by decide, by decide, by decide, by decide, by decide, rfl⟩

/-- Three bytes, the last two fetched past the end of the space (R90). -/
theorem test_meets_StepRunsDecoded_wrap :
    ∃ t, decode [0x4C#8, 0x34#8, 0x12#8] = .ok (.jmpAbs 0x1234#16, []) ∧
      Fetches [0x4C#8, 0x34#8, 0x12#8]
        (put { s0 with pc := 0xFFFF#16 } [(0xFFFF#16, 0x4C#8), (0x0000#16, 0x34#8),
          (0x0001#16, 0x12#8)]) t :=
  ⟨_, by decide, by decide, by decide, by decide, by decide, by decide, by decide, rfl⟩

theorem test_meets_NoStepAfterTheEnd :
    ({ s0 with run := .halted } : State).run = .halted ∧
    ({ s0 with run := .faulted (.busFault 0x4000#16 .read) } : State).run =
      .faulted (.busFault 0x4000#16 .read) := ⟨rfl, rfl⟩

theorem test_meets_IllegalOpcodeFaults :
    let s := put s0 [(0x8000#16, 0x02#8)]
    s.run = .running ∧ s.Attached s.pc ∧ s.byteAt s.pc ∈ illegalBytes := by decide

theorem test_meets_FetchFaults :
    ({ s0 with pc := 0x4000#16 } : State).run = .running ∧
    ¬ ({ s0 with pc := 0x4000#16 } : State).Attached 0x4000#16 := by decide

/-- The opcode byte is the last attached one: the first operand fetch faults. -/
theorem test_meets_FetchFaults_first :
    ∃ t, Fetches [0xA9#8] (put { s0 with pc := 0x3FFF#16 } [(0x3FFF#16, 0xA9#8)]) t ∧
      ¬ t.Attached t.pc ∧ decode [0xA9#8, 0x00#8] = .ok (.ldaImm 0x00#8, []) ∧ s0.p.d = false :=
  ⟨_, ⟨by decide, by decide, rfl⟩, by decide, by decide, rfl⟩

/-- The first operand byte is the last attached one: the second operand fetch faults. -/
theorem test_meets_FetchFaults_second :
    ∃ t, Fetches [0xAD#8, 0x05#8]
        (put { s0 with pc := 0x3FFE#16 } [(0x3FFE#16, 0xAD#8), (0x3FFF#16, 0x05#8)]) t ∧
      ¬ t.Attached t.pc ∧ decode [0xAD#8, 0x05#8, 0x00#8] = .ok (.ldaAbs 0x0005#16, []) :=
  ⟨_, ⟨by decide, by decide, by decide, by decide, rfl⟩, by decide, by decide⟩

/-! The bus -/

theorem test_meets_BusAccessRules :
    owner s0.attach (resolve s0.mirrors 0x4000#16) = none ∧
    owner s0.attach (resolve s0.mirrors 0x7FFF#16) = none ∧
    owner s0.attach (resolve s0.mirrors 0x1FFF#16) = some .ram ∧
    owner s0.attach (resolve s0.mirrors 0xFFFF#16) = some .ram ∧
    owner s0.attach (resolve s0.mirrors 0x3FFF#16) = some .io ∧
    owner outside.attach (resolve outside.mirrors 0x0000#16) = some (.external 7) := by decide

theorem test_meets_ReadAfterWrite :
    s0.target 0x0001#16 = some .ram ∧ s0.target 0x2001#16 = some .io ∧
    s0.canon 0x0801#16 = s0.canon 0x0001#16 ∧ s0.canon 0x2001#16 ≠ s0.canon 0x0001#16 ∧
    memWrite 0x0001#16 0x5A#8 s0 = .ok () (s0.setMem [(0x0001, 0x5A#8), (0xFFFD, 0x80#8)]) :=
  ⟨by decide, by decide, by decide, by decide, rfl⟩

/-- Two mirror ranges that overlap: the later one wins where both hold the address. -/
theorem test_meets_MirrorIsPairwise :
    ∃ t, mirrorRanges { lo := 0x0000, hi := 0x0010 }
        [{ lo := 0x0100, hi := 0x0110 }, { lo := 0x0108, hi := 0x0118 }] [] = .ok t ∧
      resolve t 0x0107#16 = 0x0007#16 ∧ resolve t 0x0108#16 = 0x0000#16 ∧
      resolve t 0x0117#16 = 0x000F#16 ∧ resolve t 0x0118#16 = 0x0118#16 :=
  ⟨_, rfl, by decide⟩

theorem test_meets_MirrorRefusals :
    (∃ m ∈ ([{ lo := 0x0800, hi := 0x0801 }] : List Range),
      m.size ≠ ({ lo := 0x0000, hi := 0x0002 } : Range).size) ∧
    ({ lo := 0x0000, hi := 0x0002 } : Range).wf = true ∧
    (∀ m ∈ ([{ lo := 0x0800, hi := 0x0801 }] : List Range), m.wf = true) := by decide

theorem test_mirror_chain_refused :
    mirrorRanges { lo := 0x0800, hi := 0x1000 } [{ lo := 0x2000, hi := 0x2800 }]
      [{ lo := 0x0800, canon := 0x0000, len := 0x0800, count := 1 }] = .error .mirrorChain := by
  decide

/-- What the chain check counts beyond R57's words (log 18): a redirection onto 0x0000 that a later call
has replaced, and an empty range inside a canonical range. -/
theorem test_mirror_chain_counts_runs :
    mirrorRanges { lo := 0x0200, hi := 0x0201 } [{ lo := 0x0000, hi := 0x0001 }]
      [{ lo := 0x0100, canon := 0x0001, len := 0x0001, count := 1 },
        { lo := 0x0100, canon := 0x0000, len := 0x0001, count := 1 }] = .error .mirrorChain ∧
    mirrorRanges { lo := 0x0005, hi := 0x0005 } [{ lo := 0x0008, hi := 0x0008 }]
      [{ lo := 0x0100, canon := 0x0000, len := 0x0010, count := 1 }] = .error .mirrorChain := by
  decide

theorem test_meets_InvariantAtReset : State.reset.StorageOwned ∧ State.reset.BusWf :=
  ⟨fun _ h => absurd h List.not_mem_nil, by unfold State.BusWf; decide⟩

theorem test_meets_ResolutionNeverChains : map16.BusWf := by
  unfold State.BusWf; decide

theorem test_meets_AttachLastWins :
    (∃ t, attachOne { range := { lo := 0x0000, hi := 0x0001 }, target := .io } s0.attach = .ok t ∧
      owner t 0x0000#16 = some .io ∧ owner t 0x0001#16 = some .ram) ∧
    (({ range := { lo := 0x0000, hi := 0x10000 }, target := .io } : Attachment).range.lo ≤
      ({ range := { lo := 0x0000, hi := 0x10000 }, target := .io } : Attachment).range.hi) ∧
    ({ range := { lo := 0x0000, hi := 0x10001 }, target := .io } : Attachment).range.hi > 0x10000 :=
  ⟨⟨_, rfl, by decide⟩, by decide, by decide⟩

theorem test_meets_Read16Rule :
    s0.Attached 0xFFFF#16 ∧ s0.Attached (s0.highAddr 0xFFFF#16) ∧ ¬ s0.Attached 0x4000#16 ∧
    s0.Attached 0x3FFF#16 ∧ ¬ s0.Attached (s0.highAddr 0x3FFF#16) ∧
    s0.params.read16PageWrap = false ∧
    ({ s0 with params := { Params.default with read16PageWrap := true } } : State).highAddr
      0x02FF#16 = 0x0200#16 := by decide

/-! Operands -/

/-- A mode without a pointer is reachable when its address is attached. -/
theorem reachable_plain {m : Mode} {s : State} (h : m.pointer s = none) (k : s.Attached (m.addr s)) :
    m.Reachable s := ⟨fun p hp => (by rw [h] at hp; cases hp), k⟩

/-- A mode with a pointer is reachable when the pointer and its address are attached. -/
theorem reachable_pointer {m : Mode} {s : State} {p : Word} (h : m.pointer s = some p)
    (w : s.WordAttached p) (k : s.Attached (m.addr s)) : m.Reachable s :=
  ⟨fun q hq => (by rw [h] at hq; cases hq; exact w), k⟩

/-- Every mode, at an operand of a boundary, is reachable in S0 (ReadForm, StoreForm, ModifyForm). -/
theorem test_meets_reachable :
    (Source.imm 0xFF#8).Reachable s0 ∧ (Mode.zp 0xFF#8).Reachable s0 ∧
    (Mode.zpx 0xFF#8).Reachable { s0 with x := 0xFF#8 } ∧
    (Mode.zpy 0xFF#8).Reachable { s0 with y := 0x01#8 } ∧ (Mode.abs 0x3FFF#16).Reachable s0 ∧
    (Mode.abs 0x8000#16).Reachable s0 ∧ (Mode.absx 0xFFFF#16).Reachable { s0 with x := 0x01#8 } ∧
    (Mode.absy 0xFFFF#16).Reachable { s0 with y := 0xFF#8 } ∧
    (Mode.indx 0xFF#8).Reachable s0 ∧ (Mode.indy 0xFF#8).Reachable s0 :=
  ⟨trivial, reachable_plain rfl (by decide), reachable_plain rfl (by decide),
    reachable_plain rfl (by decide), reachable_plain rfl (by decide), reachable_plain rfl (by decide),
    reachable_plain rfl (by decide), reachable_plain rfl (by decide),
    reachable_pointer rfl (by decide) (by decide), reachable_pointer rfl (by decide) (by decide)⟩

/-- And unreachable: the cell unattached, or the cell behind a pointer, or the pointer. -/
theorem test_meets_unreachable :
    ¬ (Mode.zp 0x00#8).Reachable noBus ∧ ¬ (Mode.zpx 0x00#8).Reachable noBus ∧
    ¬ (Mode.zpy 0x00#8).Reachable noBus ∧ ¬ (Mode.abs 0x4000#16).Reachable s0 ∧
    ¬ (Mode.absx 0x7FFE#16).Reachable { s0 with x := 0x01#8 } ∧
    ¬ (Mode.absy 0x3FFF#16).Reachable { s0 with y := 0x01#8 } ∧
    ¬ (Mode.indx 0x40#8).Reachable badPointer ∧ ¬ (Mode.indy 0x40#8).Reachable badPointer ∧
    ¬ (Mode.indx 0x40#8).Reachable noBus :=
  ⟨fun h => absurd h.2 (by decide), fun h => absurd h.2 (by decide), fun h => absurd h.2 (by decide),
    fun h => absurd h.2 (by decide), fun h => absurd h.2 (by decide), fun h => absurd h.2 (by decide),
    fun h => absurd h.2 (by decide), fun h => absurd h.2 (by decide), fun h => absurd h.2 (by decide)⟩

/-- What a failing read records: the address as issued and not the canonical one, the pointer before the
cell behind it, and the pointer's low byte before its high byte (R133, R271). -/
theorem test_first_unattached_recorded :
    endsIn (exec (.ldaAbs 0x0805#16) { noBus with mirrors := s0.mirrors })
      (fun t => decide (t.run = .faulted (.busFault 0x0805#16 .read))) = true ∧
    endsIn (exec (.ldaIndx 0x40#8) noBus)
      (fun t => decide (t.run = .faulted (.busFault 0x0040#16 .read))) = true ∧
    endsIn (exec (.ldaIndy 0x40#8) (oneCell 0x0040))
      (fun t => decide (t.run = .faulted (.busFault 0x0041#16 .read))) = true ∧
    endsIn (exec (.ldaIndx 0x40#8) badPointer)
      (fun t => decide (t.run = .faulted (.busFault 0x4000#16 .read))) = true ∧
    endsIn (exec (.staIndx 0x40#8) badPointer)
      (fun t => decide (t.run = .faulted (.busFault 0x4000#16 .write))) = true := by decide

/-- The write fault behind a pointer that is attached, and the pointer unattached (StoreForm). -/
theorem test_meets_StoreForm_faults :
    (Mode.indx 0x40#8).PointerAttached badPointer ∧
    ¬ badPointer.Attached ((Mode.indx 0x40#8).addr badPointer) ∧
    (Mode.abs 0x4000#16).PointerAttached s0 ∧ ¬ s0.Attached ((Mode.abs 0x4000#16).addr s0) ∧
    ¬ (Mode.indx 0x40#8).PointerAttached noBus ∧ ¬ (Mode.indy 0xFF#8).PointerAttached noBus :=
  ⟨fun p hp => (by cases hp; decide), by decide, fun p hp => (by cases hp), by decide,
    fun h => absurd (h _ rfl).1 (by decide), fun h => absurd (h _ rfl).1 (by decide)⟩

theorem test_meets_Loads_default_map :
    DefaultMap s0 ∧ (0x4000 ≤ (0x7FFF#16).toNat ∧ (0x7FFF#16).toNat < 0x8000) ∧
    (0x2008 ≤ (0x3FFF#16).toNat ∧ (0x3FFF#16).toNat < 0x4000) :=
  ⟨test_meets_DefaultMap.1, by decide, by decide⟩

theorem test_meets_AddForm :
    (refusing.p.d = true ∧ refusing.params.decimal = .refuse) ∧ s0.p.d = false ∧
    (({ s0 with p := { s0.p with d := true } } : State).p.d = true ∧
      ({ s0 with p := { s0.p with d := true } } : State).params.decimal = .binary) := by decide

theorem test_adc_refused : exec (.adcImm 0x01#8) refusing = .refused .decimalMode := rfl

theorem test_step_refused :
    step (put refusing [(0x8000#16, 0xE9#8), (0x8001#16, 0x01#8)]) = .refused .decimalMode := rfl

theorem test_meets_BranchForm :
    (s0.p.c = false ∧ s0.p.z = false ∧ s0.p.n = false ∧ s0.p.v = false) ∧
    ((statusOf 0xF7#8).c = true ∧ (statusOf 0xF7#8).z = true ∧ (statusOf 0xF7#8).n = true ∧
      (statusOf 0xF7#8).v = true) := by decide

theorem test_meets_JmpSetsPc :
    s0.WordAttached 0x02FF#16 ∧ ¬ s0.Attached 0x7FFF#16 ∧ s0.Attached 0x3FFF#16 ∧
    ¬ s0.Attached (s0.highAddr 0x3FFF#16) := by decide

/-! The stack -/

theorem test_meets_PushForm :
    s0.PushAttached ∧ ({ s0 with sp := 0x00#8 } : State).PushAttached ∧ ¬ noBus.PushAttached := by
  decide

theorem test_meets_PullForm :
    s0.PullAttached ∧ ({ s0 with sp := 0xFF#8 } : State).PullAttached ∧ ¬ noBus.PullAttached := by
  decide

theorem test_meets_JsrPushesReturnAddress :
    s0.PushAttached ∧ (s0.pushed 0x80#8).PushAttached ∧ ¬ noBus.PushAttached ∧
    (oneCell 0x01FD).PushAttached ∧ ¬ ((oneCell 0x01FD).pushed 0x80#8).PushAttached := by decide

theorem test_meets_RtsPullsReturnAddress :
    s0.PullAttached ∧ s0.pulled.PullAttached ∧ ¬ noBus.PullAttached ∧
    (oneCell 0x01FE).PullAttached ∧ ¬ (oneCell 0x01FE).pulled.PullAttached := by decide

theorem test_meets_RtiPullsStatusAndPc :
    let s1 : State := { s0.pulled with p := pulledStatus s0.p s0.pullByte }
    let r : State := { oneCell 0x01FE with
      attach := [{ range := { lo := 0x01FE, hi := 0x0200 }, target := .ram }] }
    let r1 : State := { r.pulled with p := pulledStatus r.p r.pullByte }
    s0.PullAttached ∧ s1.PullAttached ∧ s1.pulled.PullAttached ∧
    r.PullAttached ∧ r1.PullAttached ∧ ¬ r1.pulled.PullAttached := by decide

theorem test_meets_BrkHalts :
    let s := put s0 [(0x8000#16, 0x00#8)]
    s.run = .running ∧ s.Attached s.pc ∧ s.byteAt s.pc = 0x00#8 ∧
    (s.afterRead s.pc).PushAttached := by decide

theorem test_meets_NopDoesNothing :
    let s := put s0 [(0x8000#16, 0xEA#8)]
    s.run = .running ∧ s.Attached s.pc ∧ s.byteAt s.pc = 0xEA#8 := by decide

theorem test_meets_PhaPlaRoundTrip :
    s0.target s0.stackSlot = some .ram ∧
    ({ s0 with sp := 0x00#8 } : State).target ({ s0 with sp := 0x00#8 } : State).stackSlot =
      some .ram := by decide

theorem test_meets_JsrRtsRoundTrip :
    let s : State := { s0 with sp := 0x00#8 }
    s.target s.stackSlot = some .ram ∧ s.target (stackAddr (s.sp - 1#8)) = some .ram ∧
    s.canon s.stackSlot ≠ s.canon (stackAddr (s.sp - 1#8)) := by decide

theorem test_meets_StackStaysInRam :
    DefaultMap s0 ∧ (∃ t, exec .pha s0 = .next t) ∧ (∃ t, exec .php s0 = .next t) ∧
    (∃ t, exec .pla s0 = .next t) ∧ (∃ t, exec .plp s0 = .next t) ∧
    (∃ t, exec (.jsr 0x8010#16) s0 = .next t) ∧ (∃ t, exec .rts s0 = .next t) ∧
    (∃ t, exec .rti s0 = .next t) ∧ ∃ t, exec .brk s0 = .next t :=
  ⟨test_meets_DefaultMap.1, exists_next (by decide), exists_next (by decide), exists_next (by decide),
    exists_next (by decide), exists_next (by decide), exists_next (by decide),
    exists_next (by decide), exists_next (by decide)⟩

/-! The frames and the rules of every step -/

theorem test_meets_RegisterFrame :
    (∃ t, exec (.incAbs 0x0300#16) s0 = .next t) ∧ Register.a ∉ registersWritten (.incAbs 0x0300#16) ∧
    (mnemonicOf (.incAbs 0x0300#16)).mayJump = false ∧
    Flag.c ∉ (mnemonicOf (.incAbs 0x0300#16)).flagsWritten :=
  ⟨exists_next (by decide), by decide⟩

theorem test_meets_MemoryFrame :
    (∃ t, exec (.staAbs 0x0800#16) s0 = .next t) ∧
    storedAddrs (.staAbs 0x0800#16) s0 = [0x0800#16] ∧
    s0.canon 0x0001#16 ≠ s0.canon 0x0800#16 :=
  ⟨exists_next (by decide), rfl, by decide⟩

theorem test_stored_addresses :
    storedAddrs (.jsr 0x8010#16) s0 = [0x01FD#16, 0x01FC#16] ∧ storedAddrs .brk s0 = [0x01FD#16] ∧
    storedAddrs .nop s0 = [] := ⟨rfl, rfl, rfl⟩

theorem test_meets_ConfigurationFrame :
    (∃ t, step s0 = .next t) ∧ ∀ q ∈ s0.attach, ∀ id, q.target ≠ .external id := by
  refine ⟨exists_next (by decide), fun q hq id h => ?_⟩
  have k : ∀ q ∈ s0.attach, q.target = .ram ∨ q.target = .io := by decide
  rcases k q hq with e | e <;> rw [e] at h <;> cases h

theorem test_meets_RunStateFrame :
    (∃ t, exec .brk s0 = .next t ∧ decide (t.run = .halted) = true) ∧
    ∃ t, exec (.ldaAbs 0x4000#16) s0 = .next t ∧
      decide (t.run = .faulted (.busFault 0x4000#16 .read)) = true :=
  ⟨exists_of_endsIn (by decide), exists_of_endsIn (by decide)⟩

/-- A step to each of the four run states of RunStateFrame. -/
theorem test_meets_RunStateFrame_step :
    (∃ t, step (put s0 [(0x8000#16, 0xEA#8)]) = .next t ∧ decide (t.run = .running) = true) ∧
    (∃ t, step s0 = .next t ∧ decide (t.run = .halted) = true) ∧
    (∃ t, step { s0 with pc := 0x4000#16 } = .next t ∧
      decide (t.run = .faulted (.busFault 0x4000#16 .read)) = true) ∧
    ∃ t, step (put s0 [(0x8000#16, 0x1A#8)]) = .next t ∧
      decide (t.run = .faulted (.invalidOpcode 0x1A#8 0x8000#16)) = true :=
  ⟨exists_of_endsIn (by decide), exists_of_endsIn (by decide), exists_of_endsIn (by decide),
    exists_of_endsIn (by decide)⟩

theorem test_meets_InvariantKept : s0.mem.wf ∧ s0.StorageOwned ∧ s0.BusWf ∧ s0.p.b = true ∧
    ∃ t, step s0 = .next t := by
  refine ⟨by decide, fun c hc => ?_, by unfold State.BusWf; decide, rfl, exists_next (by decide)⟩
  have k : ∀ c ∈ s0.mem, owner s0.attach (BitVec.ofNat 16 c.1) = some .ram := by decide
  exact .inl (k c hc)

/-- A step that is refused, and one from the same bytes that is not (RunningStepsUnlessDecimalRefused). -/
theorem test_meets_RunningStepsUnlessDecimalRefused :
    s0.run = .running ∧ refusing.run = .running ∧ ∃ t, step s0 = .next t :=
  ⟨rfl, rfl, exists_next (by decide)⟩

theorem test_meets_OnlyBrkHalts :
    s0.run = .running ∧ ∃ t, step s0 = .next t ∧ decide (t.run = .halted) = true :=
  ⟨rfl, exists_of_endsIn (by decide)⟩

theorem test_meets_DefaultMapFaultsInTheHole :
    let s : State := { s0 with pc := 0x7FFF#16 }
    DefaultMap s ∧ s.run = .running ∧
    ∃ t, step s = .next t ∧ decide (t.run = .faulted (.busFault 0x7FFF#16 .read)) = true :=
  ⟨test_meets_DefaultMap.1, rfl, exists_of_endsIn (by decide)⟩

/-! What the host asks of a table word -/

theorem test_table_word : decodeTableWord 24 0x1234DE = some (.decAbsx 0x1234#16) := by decide

theorem test_table_word_short : decodeTableWord 8 0xFFEA = some .nop := by decide

theorem test_table_word_runs :
    endsIn (step (State.reset.withFetchWord 24 0x12344C)) (fun t => decide (t.pc = 0x1234#16)) = true := by
  decide

end Sys2Proof.Tests
end

section
/-!
PROOF. What the 16-bit read of the bus does (20_memory.md R61).
-/
namespace Sys2Proof.Machine

/-! ### `read16` -/

/-- Without `READ16_PAGE_WRAP` the high byte stands at the next address (R61). -/
theorem State.highAddr_of_no_pageWrap {s : State} (h : s.params.read16PageWrap = false) (a : Word) :
    s.highAddr a = a + 1#16 := by
  rw [← highByteAddr_eq, h]
  rfl

/-- Under `READ16_PAGE_WRAP` the high byte stands in the page of the low one (R61). -/
theorem State.highAddr_of_pageWrap {s : State} (h : s.params.read16PageWrap = true) (a : Word) :
    s.highAddr a = (a &&& 0xFF00#16) ||| ((a + 1#16) &&& 0x00FF#16) := by
  rw [← highByteAddr_eq, h]
  rfl

/-- The value of `read16(a)` is `hi:lo` (R7, R61). -/
theorem State.wordAt_eq_append (s : State) (a : Word) :
    s.wordAt a = (s.afterRead a).byteAt (s.highAddr a) ++ s.byteAt a :=
  (hiLo_eq _ _).symm

/-- A failing read of the low byte ends `read16` before the high byte is tried (R61). -/
theorem State.wordFault_of_low_unattached {s : State} {a : Word} (h : ¬ s.Attached a) :
    s.wordFault a = busFaulted s a .read :=
  if_neg h

/-- The high byte's read fails in the state the low byte's read left (R61). -/
theorem State.wordFault_of_low_attached {s : State} {a : Word} (h : s.Attached a) :
    s.wordFault a = busFaulted (s.afterRead a) (s.highAddr a) .read :=
  if_pos h

end Sys2Proof.Machine

namespace Sys2Proof.Claims
open Sys2Proof.Machine

/-- Settles O21: the two settings of `READ16_PAGE_WRAP`, then the three ways the two reads can go. -/
theorem read16Rule : Obligations.Read16Rule := by
  unfold Obligations.Read16Rule
  intro a s
  refine ⟨fun noWrap => State.highAddr_of_no_pageWrap noWrap a,
    fun wrap => State.highAddr_of_pageWrap wrap a, fun low high => ?_, fun noLow => ?_,
    fun low noHigh => ?_⟩
  · rw [read16_attached ⟨low, high⟩, State.wordAt_eq_append, State.afterReadWord]
  · rw [read16_unattached fun both => noLow both.1, State.wordFault_of_low_unattached noLow]
  · rw [read16_unattached fun both => noHigh both.2, State.wordFault_of_low_attached low]

end Sys2Proof.Claims
end

section
/-!
PROOF. Fetch, decode and the addresses of the zero page (40_fetch_decode_addressing.md R110–R117): what
the decoder reads is what `step` fetches and runs, and how `ZPIndex` wraps.
-/
namespace Sys2Proof

/-! ### What the decoder accepts -/

/-- The operand bytes a shape asks for, and the instruction they make with it (R91, R92). -/
inductive Shape.Makes : Shape → List Byte → Instr → Prop
  | plain (i : Instr) : Makes (.plain i) [] i
  | byte (mk : Byte → Instr) (nn : Byte) : Makes (.byte mk) [nn] (mk nn)
  | word (mk : Word → Instr) (ll hh : Byte) : Makes (.word mk) [ll, hh] (mk (operandWord ll hh))

/-- What the decoder accepts is an opcode byte with a row, the operand bytes its shape asks for, and the
bytes left over (R90–R93). -/
theorem decode_ok {bs rest : List Byte} {i : Instr} (h : decode bs = .ok (i, rest)) :
    ∃ op operands sh, bs = op :: (operands ++ rest) ∧ opcodeShape op = some sh ∧
      sh.Makes operands i := by
  cases bs with
  | nil => cases h
  | cons op tail =>
    dsimp only [decode] at h
    cases hsh : opcodeShape op with
    | none => rw [hsh] at h; cases h
    | some sh =>
      rw [hsh] at h
      match sh, tail, h with
      | .plain i, _, rfl => exact ⟨op, [], _, rfl, hsh, .plain i⟩
      | .byte mk, nn :: _, rfl => exact ⟨op, [nn], _, rfl, hsh, .byte mk nn⟩
      | .word mk, ll :: hh :: _, rfl => exact ⟨op, [ll, hh], _, rfl, hsh, .word mk ll hh⟩

end Sys2Proof

namespace Sys2Proof.Machine

/-! ### What a step fetches -/

/-- A fetch of one attached byte, as `Fetches` writes the state it leaves. -/
theorem fetchByte_attached_only {s : State} (h : s.Attached s.pc) :
    OnlyFetch s { s.afterRead s.pc with pc := BitVec.ofNat 16 (s.pc.toNat + 1) } := by
  have k := fetchByte_only s
  rwa [fetchByte_attached h] at k

theorem Fetches.only {bs : List Byte} {s t : State} (h : Fetches bs s t) : OnlyFetch s t := by
  induction bs generalizing s with
  | nil => cases h; exact OnlyFetch.refl _
  | cons b rest ih =>
    obtain ⟨attached, -, tail⟩ := h
    exact (fetchByte_attached_only attached).trans (ih tail)

/-- PC moves past every byte fetched, mod 65536 (R90, R114). -/
theorem Fetches.pc {bs : List Byte} {s t : State} (h : Fetches bs s t) :
    t.pc = BitVec.ofNat 16 (s.pc.toNat + bs.length) := by
  induction bs generalizing s with
  | nil => cases h; simp
  | cons b rest ih =>
    obtain ⟨-, -, tail⟩ := h
    rw [ih tail]
    apply BitVec.eq_of_toNat_eq
    simp only [BitVec.toNat_ofNat, List.length_cons]
    omega

/-- The operand fetches of a shape give the instruction its operand bytes make (R113–R115). -/
theorem fetchOperands_of_makes {sh : Shape} {operands : List Byte} {i : Instr} {s t : State}
    (hm : sh.Makes operands i) (hf : Fetches operands s t) : fetchOperands sh s = .instr i t := by
  cases hm with
  | plain => cases hf; rfl
  | byte mk nn =>
    obtain ⟨attached, rfl, rfl⟩ := hf
    rw [fetchOperands, fetchByte_attached attached, Acc.toInstr]
  | word mk ll hh =>
    obtain ⟨lowAttached, rfl, highAttached, rfl, rfl⟩ := hf
    rw [fetchOperands, fetchWord, fetchByte_attached lowAttached, Acc.bind_ok,
      fetchByte_attached highAttached, Acc.bind_ok, Acc.toInstr]

/-- The opcode byte being attached, fetch is the dispatch on it (R111, R112). -/
theorem fetchInstr_attached {s : State} (h : s.Attached s.pc) :
    fetchInstr s = dispatchOpcode (s.byteAt s.pc) s.pc
      { s.afterRead s.pc with pc := BitVec.ofNat 16 (s.pc.toNat + 1) } := by
  rw [fetchInstr, fetchByte_attached h]

/-- Dispatch on a byte with a row (R112, R161). -/
theorem dispatchOpcode_some {op : Byte} {sh : Shape} (h : opcodeShape op = some sh) (pc0 : Word)
    (s : State) :
    dispatchOpcode op pc0 s =
      if isDecimalOpcode op && decimalRefused s then .refused .decimalMode
      else fetchOperands sh s := by
  rw [dispatchOpcode, h]

/-! ### ADC and SBC in decimal mode -/

theorem OnlyFetch.decimalRefused_eq {s t : State} (h : OnlyFetch s t) :
    decimalRefused t = decimalRefused s := by
  rw [decimalRefused, decimalRefused, h.p, h.touches.params]

/-- An instruction with the opcode byte of an ADC or SBC is one (R162, R163). -/
theorem exec_eq_addMemory_of_isDecimalOpcode {op : Byte} {sh : Shape} {operands : List Byte} {i : Instr}
    (hop : isDecimalOpcode op = true) (hsh : opcodeShape op = some sh) (hm : sh.Makes operands i) :
    ∃ f src, exec i = addMemory f src := by
  simp only [isDecimalOpcode, List.contains_iff_mem, List.mem_cons, List.not_mem_nil, or_false] at hop
  rcases hop with rfl | rfl | rfl | rfl | rfl | rfl | rfl | rfl | rfl | rfl | rfl | rfl | rfl | rfl |
    rfl | rfl <;>
  · cases hsh
    cases hm
    exact ⟨_, _, rfl⟩

theorem addMemory_refused {f : Byte → Byte} {src : Source} {s : State} (h : decimalRefused s = true) :
    addMemory f src s = .refused .decimalMode :=
  if_pos h

/-! ### The step -/

theorem step_of_halted {s : State} (h : s.run = .halted) : step s = .fault .stepAfterHalt := by
  rw [step, h]

theorem step_of_faulted {s : State} {r : FaultRecord} (h : s.run = .faulted r) :
    step s = .fault (.stepAfterFault r) := by
  rw [step, h]

theorem step_of_instr {s t : State} {i : Instr} (hr : s.run = .running)
    (hf : fetchInstr s = .instr i t) : step s = exec i t := by
  simp only [step, hr, hf]

theorem step_of_refused {s : State} {r : Refusal} (hr : s.run = .running)
    (hf : fetchInstr s = .refused r) : step s = .refused r := by
  simp only [step, hr, hf]

/-- A step runs the instruction whose bytes it fetches; where R161 refuses the step before its operand
fetches, the instruction itself is refused by the same rule (log 16). -/
theorem step_of_fetches {s t : State} {op : Byte} {sh : Shape} {operands : List Byte} {i : Instr}
    (hr : s.run = .running) (hsh : opcodeShape op = some sh) (hm : sh.Makes operands i)
    (hf : Fetches (op :: operands) s t) : step s = exec i t := by
  have only := hf.only
  obtain ⟨attached, rfl, tail⟩ := hf
  have fetched := (fetchInstr_attached attached).trans (dispatchOpcode_some hsh _ _)
  split at fetched
  next refused =>
    rw [Bool.and_eq_true] at refused
    obtain ⟨decimal, refused⟩ := refused
    obtain ⟨f, src, meaning⟩ := exec_eq_addMemory_of_isDecimalOpcode decimal hsh hm
    rw [step_of_refused hr fetched, meaning,
      addMemory_refused (tail.only.decimalRefused_eq.trans refused)]
  next => exact step_of_instr hr (fetched.trans (fetchOperands_of_makes hm tail))

/-! ### Zero-page indexing -/

theorem zpIndex_wrap_toNat (b r : Byte) : (zpIndex true b r).toNat = (b.toNat + r.toNat) % 256 := by
  simp only [zpIndex, if_true, zeroExtend16, BitVec.toNat_setWidth, BitVec.toNat_add]
  omega

theorem zpIndex_noWrap_toNat (b r : Byte) : (zpIndex false b r).toNat = b.toNat + r.toNat := by
  have := b.isLt
  have := r.isLt
  simp only [zpIndex, Bool.false_eq_true, if_false, zeroExtend16, BitVec.toNat_add,
    BitVec.toNat_setWidth]
  omega

end Sys2Proof.Machine

namespace Sys2Proof.Claims
open Sys2Proof.Machine

/-- Settles O10: what the decoder accepts with no byte left over is an opcode byte with a row and the
operand bytes of its shape, and those are the bytes the step fetches. -/
theorem stepRunsDecoded : Obligations.StepRunsDecoded := by
  unfold Obligations.StepRunsDecoded
  intro s t i bs running decoded fetches
  obtain ⟨op, operands, sh, rfl, hsh, makes⟩ := decode_ok decoded
  refine ⟨?_, fetches.pc⟩
  rw [List.append_nil] at fetches
  exact step_of_fetches running hsh makes fetches

/-- Settles O11: one named fault for each of the two run states that end a run. -/
theorem noStepAfterTheEnd : Obligations.NoStepAfterTheEnd := by
  unfold Obligations.NoStepAfterTheEnd
  exact ⟨fun _ halted => step_of_halted halted, fun _ _ faulted => step_of_faulted faulted⟩

/-- Settles O22: the two settings of `ZP_INDEX_WRAP`, and the bound each sum gives. -/
theorem zeroPageIndexing : Obligations.ZeroPageIndexing := by
  unfold Obligations.ZeroPageIndexing
  intro b r
  have := b.isLt
  have := r.isLt
  rw [zpIndex_wrap_toNat, zpIndex_noWrap_toNat]
  exact ⟨rfl, rfl, by omega, by omega, rfl⟩

end Sys2Proof.Claims
end

section
/-!
PROOF. The adder of ADC and SBC (42_arithmetic_logic.md R160): its sum, its carry out, and its overflow
both as the rule on signs and as the range of the signed sum.
-/
namespace Sys2Proof.Machine

/-! ### `addWithCarry` -/

theorem carryIn_eq_toNat (c : Bool) : carryIn c = c.toNat := by
  cases c <;> rfl

theorem addWithCarry_sum (a b : Byte) (c : Bool) :
    (addWithCarry a b c).1 = BitVec.ofNat 8 (a.toNat + b.toNat + c.toNat) := by
  rw [addWithCarry, carryIn_eq_toNat]

theorem addWithCarry_carry_iff (a b : Byte) (c : Bool) :
    (addWithCarry a b c).2.1 = true ↔ a.toNat + b.toNat + c.toNat > 255 := by
  rw [addWithCarry, carryIn_eq_toNat, decide_eq_true_iff]

/-- Bit 7, which R160 compares, is the sign bit. -/
theorem addWithCarry_overflow_iff_signs (a b : Byte) (c : Bool) :
    (addWithCarry a b c).2.2 = true ↔ a.msb = b.msb ∧ a.msb ≠ (addWithCarry a b c).1.msb := by
  simp only [addWithCarry, Bool.and_eq_true, decide_eq_true_iff, BitVec.msb_eq_getLsbD_last]

/-- The sum read as a signed byte is the exact signed sum, brought back into -128..127 modulo 256. -/
theorem addWithCarry_sum_toInt (a b : Byte) (c : Bool) :
    (addWithCarry a b c).1.toInt = (a.toInt + b.toInt + c.toNat).bmod 256 := by
  have sum : (addWithCarry a b c).1 = BitVec.ofInt 8 (a.toInt + b.toInt + c.toNat) := by
    simp only [addWithCarry_sum, BitVec.ofNat_add, BitVec.ofInt_add, BitVec.ofNat_toNat,
      BitVec.setWidth_eq, BitVec.ofInt_toInt, BitVec.ofInt_natCast]
  rw [sum, BitVec.toInt_ofInt]

/-- The sign of a signed sum `S = x + y + c` after wrapping to a byte: `S` needs at most one correction by
256, which happens just when `S` is out of range, and then both addends have the sign of `S` and the
wrapped sum the other. -/
theorem sign_of_wrapped_sum_differs_iff {x y c : Int} (hx : -128 ≤ x ∧ x < 128)
    (hy : -128 ≤ y ∧ y < 128) (hc : 0 ≤ c ∧ c ≤ 1) :
    ((x < 0 ↔ y < 0) ∧ ¬ (x < 0 ↔ (x + y + c).bmod 256 < 0)) ↔
      ¬ (-128 ≤ x + y + c ∧ x + y + c ≤ 127) := by
  by_cases inRange : -128 ≤ x + y + c ∧ x + y + c ≤ 127
  · have wrapped : (x + y + c).bmod 256 = x + y + c := Int.bmod_eq_of_le (by omega) (by omega)
    omega
  · by_cases negative : x + y + c < 0
    · have wrapped : (x + y + c).bmod 256 = x + y + c + 256 := by
        rw [← Int.add_bmod_right]
        exact Int.bmod_eq_of_le (by omega) (by omega)
      omega
    · have wrapped : (x + y + c).bmod 256 = x + y + c - 256 := by
        rw [← Int.sub_bmod_right]
        exact Int.bmod_eq_of_le (by omega) (by omega)
      omega

theorem addWithCarry_overflow_iff_range (a b : Byte) (c : Bool) :
    (addWithCarry a b c).2.2 = true ↔
      ¬ (-128 ≤ a.toInt + b.toInt + c.toNat ∧ a.toInt + b.toInt + c.toNat ≤ 127) := by
  have carry : (0 : Int) ≤ c.toNat ∧ (c.toNat : Int) ≤ 1 := by have := c.toNat_le; omega
  rw [addWithCarry_overflow_iff_signs, ← sign_of_wrapped_sum_differs_iff
    ⟨BitVec.le_toInt a, BitVec.toInt_lt⟩ ⟨BitVec.le_toInt b, BitVec.toInt_lt⟩ carry,
    ← addWithCarry_sum_toInt]
  simp only [BitVec.msb_eq_toInt, ne_eq, decide_eq_decide]

end Sys2Proof.Machine

namespace Sys2Proof.Claims
open Sys2Proof.Machine

/-- Settles O23: the adder's three results, the overflow once by signs and once by the signed range. -/
theorem adderRule : Obligations.AdderRule := by
  unfold Obligations.AdderRule
  exact fun a b c => ⟨addWithCarry_sum a b c, addWithCarry_carry_iff a b c,
    addWithCarry_overflow_iff_signs a b c, addWithCarry_overflow_iff_range a b c⟩

end Sys2Proof.Claims
end

section
/-!
PROOF. The compares (44_compare_bit.md R190–R193), over what every instruction of the read class has in
common (40_fetch_decode_addressing.md R131–R133).
-/
namespace Sys2Proof.Machine

/-! ### Encodings -/

theorem operandLow_eq (ww : Word) : operandLow ww = BitVec.ofNat 8 (ww.toNat % 256) := by
  apply BitVec.eq_of_toNat_eq
  simp [operandLow]

theorem operandHigh_eq (ww : Word) : operandHigh ww = BitVec.ofNat 8 (ww.toNat / 256) := by
  apply BitVec.eq_of_toNat_eq
  simp [operandHigh, Nat.shiftRight_eq_div_pow]

/-- An opcode with a 16-bit operand, as the statements write its bytes (R91). -/
theorem encodeWord_eq (op : Byte) (ww : Word) : encodeWord op ww = op :: wordBytes ww := by
  rw [encodeWord, operandLow_eq, operandHigh_eq, wordBytes]

end Sys2Proof.Machine

namespace Sys2Proof.Claims
open Sys2Proof.Machine

/-! ### The read class -/

/-- An instruction that reads its operand and then has the effect `eff` is of the read class: the read
gives the operand, or raises before there is an effect (R131–R133). -/
theorem readForm_of_readOperand {op : Byte} {i : Instr} {src : Source}
    {eff : State → Byte → State → State} (encoding : encode i = op :: src.bytes)
    (meaning : ∀ s, exec i s =
      Acc.finish ((readOperand src s).bind fun v t => .ok () (eff s v t))) :
    ReadForm op i src eff := by
  refine ⟨encoding, fun s reachable => ?_, fun s unreachable => ?_⟩
  · rw [meaning, readOperand_reachable reachable, Acc.bind_ok, Acc.finish_ok]
  · rw [meaning, readOperand_unreachable unreachable, Acc.bind_stop, Acc.finish_stop]

theorem setZN_eq_zn (p : Status) (r : Byte) : p.setZN r = zn p r := by
  rw [Status.setZN, zn, BitVec.msb_eq_getLsbD_last]

/-! ### The comparator -/

/-- The difference mod 256, as R190 writes it. -/
theorem byte_sub_eq (a b : Byte) : a - b = BitVec.ofNat 8 (a.toNat + 256 - b.toNat) := by
  have := b.isLt
  rw [BitVec.sub_def]
  congr 1
  omega

/-- The effect of `Compare(reg, v)` on a state is on P alone (R190). -/
theorem setP_compare (reg v : Byte) (t : State) : t.setP (t.p.compare reg v) = compared reg v t := by
  rw [Status.compare, setZN_eq_zn, byte_sub_eq]
  rfl

/-- A compare of a register is of the read class, its effect that of `Compare` (R190–R193). -/
theorem readForm_of_compareWith {op : Byte} {i : Instr} {src : Source} (reg : State → Byte)
    (encoding : encode i = op :: src.bytes)
    (meaning : ∀ s, exec i s = compareWith (reg s) src s) :
    ReadForm op i src (fun s v t => compared (reg s) v t) := by
  refine readForm_of_readOperand encoding fun s => ?_
  simp only [meaning, compareWith, setP_compare]

/-- Settles O33: every form is a `compareWith` of A, X or Y; with a 16-bit operand the encoding is that of
`encodeWord`. -/
theorem comparesSetCZN : Obligations.ComparesSetCZN := by
  unfold Obligations.ComparesSetCZN
  exact ⟨fun _ => readForm_of_compareWith State.a rfl fun _ => rfl,
    fun _ => readForm_of_compareWith State.a rfl fun _ => rfl,
    fun _ => readForm_of_compareWith State.a rfl fun _ => rfl,
    fun ww => readForm_of_compareWith State.a (encodeWord_eq _ ww) fun _ => rfl,
    fun ww => readForm_of_compareWith State.a (encodeWord_eq _ ww) fun _ => rfl,
    fun ww => readForm_of_compareWith State.a (encodeWord_eq _ ww) fun _ => rfl,
    fun _ => readForm_of_compareWith State.a rfl fun _ => rfl,
    fun _ => readForm_of_compareWith State.a rfl fun _ => rfl,
    fun _ => readForm_of_compareWith State.x rfl fun _ => rfl,
    fun _ => readForm_of_compareWith State.x rfl fun _ => rfl,
    fun ww => readForm_of_compareWith State.x (encodeWord_eq _ ww) fun _ => rfl,
    fun _ => readForm_of_compareWith State.y rfl fun _ => rfl,
    fun _ => readForm_of_compareWith State.y rfl fun _ => rfl,
    fun ww => readForm_of_compareWith State.y (encodeWord_eq _ ww) fun _ => rfl⟩

end Sys2Proof.Claims
end

section
/-!
PROOF. The stack (46_stack_subroutine.md R220–R226, R229, R230): P as the byte a push writes and as a
pulled byte leaves it, what the instructions that push one byte have in common, and those that pull one,
then BRK and RTI.
-/
namespace Sys2Proof.Machine

/-! ### What an access to the stack leaves -/

theorem State.pushed_pc (s : State) (v : Byte) : (s.pushed v).pc = s.pc := by
  obtain ⟨m, h, stored⟩ := s.afterWrite_eq s.stackSlot v
  rw [State.pushed, stored]

theorem State.pulled_p (s : State) : s.pulled.p = s.p :=
  State.afterRead_p _ _

/-- A BusFault taken, as the statements write it (R271). -/
theorem takeFault_busFault (s : State) (a : Word) (d : Dir) :
    s.takeFault (.busFault a d) = busFaulted s a d := rfl

/-! ### Two pulls, low byte first (R228, R230) -/

theorem pullWord_attached {s : State} (low : s.PullAttached) (high : s.pulled.PullAttached) :
    pullWord s = .ok (BitVec.ofNat 16 (s.pulled.pullByte.toNat * 256 + s.pullByte.toNat))
      s.pulled.pulled := by
  rw [pullWord, pull_attached low, Acc.bind_ok, pull_attached high, Acc.bind_ok, hiLo_eq]

/-- With the low byte's slot unattached the high byte's is not tried (R8, R133). -/
theorem pullWord_low_unattached {s : State} (noLow : ¬ s.PullAttached) :
    pullWord s = .stop (busFaulted s.spUp s.spUp.stackSlot .read) := by
  rw [pullWord, pull_unattached noLow, Acc.bind_stop, takeFault_busFault]

/-- With the high byte's slot unattached the pull of the low byte stands (R133). -/
theorem pullWord_high_unattached {s : State} (low : s.PullAttached) (noHigh : ¬ s.pulled.PullAttached) :
    pullWord s = .stop (busFaulted s.pulled.spUp s.pulled.spUp.stackSlot .read) := by
  rw [pullWord, pull_attached low, Acc.bind_ok, pull_unattached noHigh, Acc.bind_stop, takeFault_busFault]

end Sys2Proof.Machine

namespace Sys2Proof.Claims
open Sys2Proof.Machine

/-! ### P on the stack -/

/-- The byte PHP and BRK push: P with bits 4 and 5 set, whatever B holds (R224, R229). -/
theorem toByte_or_breakBits (p : Status) : p.toByte ||| 0x30#8 = statusByte p true := by
  obtain ⟨n, v, b, d, i, z, c⟩ := p
  revert n v b d i z c
  decide

/-- `StatusFromStack(v)`, as the statements write it (R222). -/
theorem fromStack_eq_pulledStatus (p : Status) (v : Byte) : p.fromStack v = pulledStatus p v :=
  rfl

/-- `StatusFromStack(v)` as a formula on bytes (R222): bit 4 of P kept, bit 5 set, the others from `v`. -/
theorem fromStack_toByte (p : Status) (v : Byte) :
    (p.fromStack v).toByte = (v &&& 0xCF#8) ||| (p.toByte &&& 0x10#8) ||| 0x20#8 := by
  apply BitVec.eq_of_getLsbD_eq
  intro k hk
  simp only [Status.toByte, Status.fromStack, BitVec.getLsbD_append, BitVec.getLsbD_ofBool,
    BitVec.getLsbD_or, BitVec.getLsbD_and]
  interval_cases k <;> simp

/-! ### One push -/

/-- An instruction that pushes `v` and then has the effect `eff` (R220): the push gives the state pushed,
or raises before there is an effect. -/
theorem pushForm_of_push {op : Byte} {i : Instr} {v : State → Byte} {eff : State → State}
    (encoding : encode i = [op])
    (meaning : ∀ s, exec i s = Acc.finish ((push (v s) s).bind fun _ t => .ok () (eff t))) :
    PushForm op i v eff := by
  refine ⟨encoding, fun s attached => ?_, fun s unattached => ?_⟩
  · rw [meaning, push_attached _ attached, Acc.bind_ok, Acc.finish_ok]
  · rw [meaning, push_unattached _ unattached, Acc.bind_stop, Acc.finish_stop, takeFault_busFault]

/-- An instruction that is a push and no more (R220). -/
theorem pushForm_of_push_only {op : Byte} {i : Instr} {v : State → Byte} (encoding : encode i = [op])
    (meaning : ∀ s, exec i s = Acc.finish (push (v s) s)) : PushForm op i v id :=
  pushForm_of_push encoding fun s =>
    (meaning s).trans (congrArg Acc.finish (Acc.bind_ok_right (push (v s) s)).symm)

/-- Settles O37: both are a push and no more, PHP's byte as R224 builds it. -/
theorem pushesWriteTheStack : Obligations.PushesWriteTheStack := by
  unfold Obligations.PushesWriteTheStack
  refine ⟨pushForm_of_push_only rfl fun _ => rfl, pushForm_of_push_only rfl fun s => ?_⟩
  rw [← toByte_or_breakBits]
  rfl

/-! ### One pull -/

/-- An instruction that pulls a byte and then has the effect `eff` on it (R221): the pull gives the byte,
or raises before there is an effect. -/
theorem pullForm_of_pull {op : Byte} {i : Instr} {eff : Byte → State → State}
    (encoding : encode i = [op])
    (meaning : ∀ s, exec i s = Acc.finish ((pull s).bind fun v t => .ok () (eff v t))) :
    PullForm op i eff := by
  refine ⟨encoding, fun s attached => ?_, fun s unattached => ?_⟩
  · rw [meaning, pull_attached attached, Acc.bind_ok, Acc.finish_ok]
  · rw [meaning, pull_unattached unattached, Acc.bind_stop, Acc.finish_stop, takeFault_busFault]

/-- `A <- v; SetZN(v)` (R116), as the statements write it. -/
theorem putReg_a (t : State) (v : Byte) : t.putReg .a v = { t with a := v, p := zn t.p v } := by
  rw [State.putReg, setZN_eq_zn]
  rfl

/-- Settles O38: a pull, then A, Z and N from the byte pulled. -/
theorem plaPullsIntoA : Obligations.PlaPullsIntoA := by
  unfold Obligations.PlaPullsIntoA
  refine pullForm_of_pull rfl fun s => ?_
  simp only [← putReg_a]
  rfl

/-- Settles O39: a pull, then `StatusFromStack` of the byte pulled, which is the formula quoted. -/
theorem plpPullsStatus : Obligations.PlpPullsStatus := by
  unfold Obligations.PlpPullsStatus
  refine ⟨pullForm_of_pull rfl fun s => ?_, fromStack_toByte⟩
  simp only [← fromStack_eq_pulledStatus]
  rfl

/-! ### BRK -/

/-- BRK is a push of P with an effect after it: I becomes 1 and the run state Halted (R229, R272). -/
theorem pushForm_brk : PushForm 0x00#8 .brk (fun s => statusByte s.p true)
    fun t => { t with p := { t.p with i := true }, run := .halted } := by
  refine pushForm_of_push rfl fun s => ?_
  rw [← toByte_or_breakBits]
  rfl

/-- BRK's row of the opcode map (R94). -/
theorem opcodeShape_brk : opcodeShape 0x00#8 = some (.plain .brk) := by
  simp [opcodeShape, lookupOpcode, opcodeRows, opcodeRowsLoadStore, opcodeRowsArith, opcodeRowsShift,
    opcodeRowsCompare, opcodeRowsBranch, opcodeRowsStack]

/-- Settles O42: what BRK does, then the step that fetches it, whose PC the push leaves. -/
theorem brkHalts : Obligations.BrkHalts := by
  unfold Obligations.BrkHalts
  refine ⟨pushForm_brk, fun s running attached opcode slot => ?_⟩
  have fetches : Fetches [0x00#8] s
      { s.afterRead s.pc with pc := BitVec.ofNat 16 (s.pc.toNat + 1) } := ⟨attached, opcode, rfl⟩
  have runs := step_of_fetches running opcodeShape_brk (.plain .brk) fetches
  obtain ⟨-, halts, -⟩ := pushForm_brk
  refine ⟨_, runs.trans (halts _ slot), rfl, ?_⟩
  rw [add_one_eq]
  exact State.pushed_pc _ _

/-! ### RTI -/

/-- The state `StatusFromStack(Pull())` leaves (R222). -/
def statusPulled (s : State) : State := { s.pulled with p := pulledStatus s.p s.pullByte }

theorem pullStatus_attached {s : State} (h : s.PullAttached) :
    pullStatus s = .ok () (statusPulled s) := by
  rw [pullStatus, pull_attached h, Acc.bind_ok, State.pulled_p]
  rfl

theorem pullStatus_unattached {s : State} (h : ¬ s.PullAttached) :
    pullStatus s = .stop (busFaulted s.spUp s.spUp.stackSlot .read) := by
  rw [pullStatus, pull_unattached h, Acc.bind_stop, takeFault_busFault]

theorem exec_rti (s : State) : exec .rti s = Acc.finish (returnFromInterrupt s) := rfl

/-- RTI with its status pulled: what is left is the pull of PC (R230). -/
theorem exec_rti_of_pullAttached {s : State} (h : s.PullAttached) :
    exec .rti s = Acc.finish ((pullWord (statusPulled s)).bind fun w t => .ok () (t.setPc w)) := by
  rw [exec_rti, returnFromInterrupt, pullStatus_attached h, Acc.bind_ok]

/-- Settles O43: one case where all three pulls complete, and one for each of them that may raise. -/
theorem rtiPullsStatusAndPc : Obligations.RtiPullsStatusAndPc := by
  unfold Obligations.RtiPullsStatusAndPc
  refine ⟨rfl, fun s => ⟨fun status low high => ?_, fun noStatus => ?_, fun status noLow => ?_,
    fun status low noHigh => ?_⟩⟩
  · rw [exec_rti_of_pullAttached status, pullWord_attached (s := statusPulled s) low high]
    rfl
  · rw [exec_rti, returnFromInterrupt, pullStatus_unattached noStatus]
    rfl
  · rw [exec_rti_of_pullAttached status, pullWord_low_unattached (s := statusPulled s) noLow]
    rfl
  · rw [exec_rti_of_pullAttached status, pullWord_high_unattached (s := statusPulled s) low noHigh]
    rfl

end Sys2Proof.Claims
end

section
/-!
PROOF. Transfers, the index registers' steps, flag instructions and NOP (47_transfer_incdec_flags.md
R240–R249, R252–R259): an instruction without an access either puts a value in a register and sets Z and N
from it, or rewrites P, or does nothing. Then the bytes the decoder refuses as NOPs.
-/
namespace Sys2Proof.Claims
open Sys2Proof.Machine

/-! ### A register and its flags -/

/-- `R <- v; SetZN(v)` (R116), the flags as the statements write them. -/
theorem putReg_eq_zn (s : State) (r : Reg) (v : Byte) :
    s.putReg r v = (s.setReg r v).setP (zn s.p v) := by
  rw [State.putReg, setZN_eq_zn]

/-- An instruction that puts `v` in a register and sets Z and N from it (R240–R244, R246–R249). -/
theorem plainForm_of_putReg {op : Byte} {i : Instr} (r : Reg) (v : State → Byte)
    (encoding : encode i = [op]) (meaning : ∀ s, exec i s = .next (s.putReg r (v s))) :
    PlainForm op i fun s => (s.setReg r (v s)).setP (zn s.p (v s)) :=
  ⟨encoding, fun s => (meaning s).trans (congrArg _ (putReg_eq_zn s r (v s)))⟩

/-- TSX puts SP in X (R244). -/
theorem plainForm_tsx : PlainForm 0xBA#8 .tsx fun s => { s with x := s.sp, p := zn s.p s.sp } :=
  plainForm_of_putReg .x State.sp rfl fun _ => rfl

/-- Settles O44: five transfers put one register in another with its flags, TXS sets SP alone; TSX at
`State.reset` is the form with SP = 0xFD. -/
theorem transfersCopyRegisters : Obligations.TransfersCopyRegisters := by
  unfold Obligations.TransfersCopyRegisters
  obtain ⟨-, tsx⟩ := plainForm_tsx
  exact ⟨plainForm_of_putReg .x State.a rfl fun _ => rfl,
    plainForm_of_putReg .y State.a rfl fun _ => rfl,
    plainForm_of_putReg .a State.x rfl fun _ => rfl,
    plainForm_of_putReg .a State.y rfl fun _ => rfl,
    plainForm_tsx,
    ⟨rfl, fun _ => rfl⟩,
    tsx State.reset⟩

/-! ### One up, one down -/

theorem byte_add_one_eq (v : Byte) : v + 1#8 = BitVec.ofNat 8 (v.toNat + 1) :=
  BitVec.add_def v 1#8

theorem byte_sub_one_eq (v : Byte) : v - 1#8 = BitVec.ofNat 8 (v.toNat + 255) :=
  byte_sub_eq v 1#8

/-- Settles O45: X or Y, one up or one down, put back with its flags. -/
theorem indexSteps : Obligations.IndexSteps := by
  unfold Obligations.IndexSteps
  refine ⟨plainForm_of_putReg .x (fun s => BitVec.ofNat 8 (s.x.toNat + 1)) rfl fun s => ?inx,
    plainForm_of_putReg .y (fun s => BitVec.ofNat 8 (s.y.toNat + 1)) rfl fun s => ?iny,
    plainForm_of_putReg .x (fun s => BitVec.ofNat 8 (s.x.toNat + 255)) rfl fun s => ?dex,
    plainForm_of_putReg .y (fun s => BitVec.ofNat 8 (s.y.toNat + 255)) rfl fun s => ?dey⟩
  case inx | iny =>
    rw [← byte_add_one_eq]
    rfl
  case dex | dey =>
    rw [← byte_sub_one_eq]
    rfl

/-! ### Flags alone -/

/-- An instruction that rewrites P and no more (R252–R258). -/
theorem plainForm_of_setP {op : Byte} {i : Instr} (f : Status → Status) (encoding : encode i = [op])
    (meaning : ∀ s, exec i s = .next (s.setP (f s.p))) :
    PlainForm op i fun s => { s with p := f s.p } :=
  ⟨encoding, meaning⟩

/-- Settles O47: each instruction sets P to P with its one flag rewritten. -/
theorem flagInstructionsWriteOneFlag : Obligations.FlagInstructionsWriteOneFlag := by
  unfold Obligations.FlagInstructionsWriteOneFlag
  exact ⟨plainForm_of_setP (·.setC false) rfl fun _ => rfl,
    plainForm_of_setP (·.setC true) rfl fun _ => rfl,
    plainForm_of_setP (·.setI false) rfl fun _ => rfl,
    plainForm_of_setP (·.setI true) rfl fun _ => rfl,
    plainForm_of_setP (·.setV false) rfl fun _ => rfl,
    plainForm_of_setP (·.setD false) rfl fun _ => rfl,
    plainForm_of_setP (·.setD true) rfl fun _ => rfl⟩

/-! ### NOP -/

/-- A byte without a row of the opcode map is refused as illegal, whatever follows it (R112). -/
theorem refusedOpcode_of_no_row {op : Byte} (h : opcodeShape op = none) : RefusedOpcode op := by
  intro rest
  simp only [decode, h]

/-- NOP's row of the opcode map (R94). -/
theorem opcodeShape_nop : opcodeShape 0xEA#8 = some (.plain .nop) := by
  simp [opcodeShape, lookupOpcode, opcodeRows, opcodeRowsLoadStore, opcodeRowsArith, opcodeRowsShift,
    opcodeRowsCompare, opcodeRowsBranch, opcodeRowsStack, opcodeRowsTransfer]

theorem plainForm_nop : PlainForm 0xEA#8 .nop id :=
  ⟨rfl, fun _ => rfl⟩

/-- Settles O48: NOP leaves its state, three bytes have no row, and a step that fetches NOP leaves what
the fetch of its one byte leaves. -/
theorem nopDoesNothing : Obligations.NopDoesNothing := by
  unfold Obligations.NopDoesNothing
  refine ⟨plainForm_nop, refusedOpcode_of_no_row (by decide), refusedOpcode_of_no_row (by decide),
    refusedOpcode_of_no_row (by decide), fun s running attached opcode => ?_⟩
  have fetches : Fetches [0xEA#8] s
      { s.afterRead s.pc with pc := BitVec.ofNat 16 (s.pc.toNat + 1) } := ⟨attached, opcode, rfl⟩
  obtain ⟨-, leaves⟩ := plainForm_nop
  rw [step_of_fetches running opcodeShape_nop (.plain .nop) fetches, leaves, id, add_one_eq]

end Sys2Proof.Claims
end

section
/-!
PROOF. The illegal opcode (60_exceptions.md R270, R281): a byte without a row of the opcode map stops the
step with PC put back at it and the fault recorded.
-/
namespace Sys2Proof.Machine

/-- InvalidOpcode is recorded with PC back at the opcode (R112). -/
theorem dispatchOpcode_none {op : Byte} (h : opcodeShape op = none) (pc0 : Word) (s : State) :
    dispatchOpcode op pc0 s = .stopped ((s.setPc pc0).takeFault (.invalidOpcode op pc0)) := by
  simp only [dispatchOpcode, h]

theorem step_of_stopped {s t : State} (hr : s.run = .running) (hf : fetchInstr s = .stopped t) :
    step s = .next t := by
  simp only [step, hr, hf]

theorem State.stepResult_of_faulted {s : State} {r : FaultRecord} (h : s.run = .faulted r) :
    s.stepResult = .fault r := by
  rw [State.stepResult, h]

/-- PC set back to where it was before a read is as if it had not moved. -/
theorem afterRead_with_pc_restored (s : State) (a w : Word) (record : FaultRecord) :
    (({ s.afterRead a with pc := w } : State).setPc s.pc).takeFault record =
      { s.afterRead a with run := .faulted record } := by
  rw [← s.afterRead_pc a]
  rfl

/-- A step at an attached byte without a row of the opcode map (R112, R270). -/
theorem step_of_no_row {s : State} (running : s.run = .running) (attached : s.Attached s.pc)
    (h : opcodeShape (s.byteAt s.pc) = none) :
    step s = .next
      { s.afterRead s.pc with run := .faulted (.invalidOpcode (s.byteAt s.pc) s.pc) } := by
  have stopped := (fetchInstr_attached attached).trans (dispatchOpcode_none h _ _)
  rw [afterRead_with_pc_restored] at stopped
  exact step_of_stopped running stopped

end Sys2Proof.Machine

namespace Sys2Proof.Claims
open Sys2Proof.Machine

/-- None of the bytes listed as illegal has a row of the opcode map (R94). -/
theorem opcodeShape_eq_none_of_mem_illegalBytes : ∀ op ∈ illegalBytes, opcodeShape op = none := by
  decide

/-- Settles O12: a listed byte has no row, so the step stops with the fault recorded; the record is what
the step result and the next step answer. -/
theorem illegalOpcodeFaults : Obligations.IllegalOpcodeFaults := by
  unfold Obligations.IllegalOpcodeFaults
  intro s running attached illegal
  have noRow := opcodeShape_eq_none_of_mem_illegalBytes _ illegal
  exact ⟨_, step_of_no_row running attached noRow, rfl, State.stepResult_of_faulted rfl,
    step_of_faulted rfl⟩

end Sys2Proof.Claims
end

section
/-!
PROOF. A launch on the default map (70_reset_and_hazards.md R290–R298): what a block of writes leaves in
storage, the table the mirror calls of setup leave, and the launch state as a whole.
-/
namespace Sys2Proof.Machine

/-! ### A block of bytes in storage -/

/-- Storage after the bytes of a block are stored in order from `a` on (R62). It is irreducible so that no
comparison of two states runs through the 2048 zeros of R295. -/
@[irreducible] def Memory.store : Memory → Nat → List Byte → Memory
  | m, _, [] => m
  | m, a, v :: rest => Memory.store (m.write a v) (a + 1) rest

theorem Memory.read_store_outside {m : Memory} {a b : Nat} {block : List Byte}
    (h : b < a ∨ a + block.length ≤ b) : (m.store a block).read b = m.read b := by
  induction block generalizing m a with
  | nil => rw [Memory.store]
  | cons v rest ih =>
    rw [List.length_cons] at h
    rw [Memory.store, ih (by omega), Memory.read_write, if_neg (by omega)]

theorem Memory.read_store_inside {m : Memory} {a k : Nat} {block : List Byte}
    (h : k < block.length) : (m.store a block).read (a + k) = block.getD k 0x00#8 := by
  induction block generalizing m a k with
  | nil => exact absurd h (Nat.not_lt_zero k)
  | cons v rest ih =>
    rw [Memory.store]
    cases k with
    | zero =>
      rw [Memory.read_store_outside (by omega), Memory.read_write, if_pos (Nat.add_zero a).symm]
      rfl
    | succ k =>
      rw [show a + (k + 1) = a + 1 + k by omega, ih (Nat.lt_of_succ_lt_succ h)]
      rfl

/-- An address no entry has. -/
theorem Memory.read_of_not_listed {m : Memory} {a : Nat} (h : ∀ c ∈ m, c.1 ≠ a) :
    m.read a = Memory.unlisted := by
  induction m with
  | nil => rfl
  | cons c rest ih =>
    obtain ⟨notHead, notRest⟩ := List.forall_mem_cons.1 h
    rw [Memory.read, if_neg notHead, ih notRest]

/-! ### A block of writes to RAM -/

/-- Each of the `n` addresses from `a` on is its own canonical address and lies in RAM. -/
structure State.PlainRam (s : State) (a n : Nat) : Prop where
  inSpace : a + n ≤ 0x10000
  canon : ∀ k, a ≤ k → k < a + n → s.canon (BitVec.ofNat 16 k) = BitVec.ofNat 16 k
  ram : ∀ k, a ≤ k → k < a + n → s.target (BitVec.ofNat 16 k) = some .ram

theorem toNat_ofNat16 {k : Nat} (h : k < 0x10000) : (BitVec.ofNat 16 k).toNat = k :=
  Nat.mod_eq_of_lt h

/-- A write to an address of plain RAM stores there (R52, R60). -/
theorem memWrite_plainRam {s : State} {a n : Nat} (plain : s.PlainRam a (n + 1)) (v : Byte) :
    memWrite (BitVec.ofNat 16 a) v s = .ok () (s.setMem (s.mem.write a v)) := by
  have inSpace := plain.inSpace
  simp only [memWrite, plain.ram a (Nat.le_refl a) (by omega), targetWrite,
    plain.canon a (Nat.le_refl a) (by omega), toNat_ofNat16 (show a < 0x10000 by omega)]

theorem writeBlock_plainRam {s : State} {a : Nat} {block : List Byte}
    (plain : s.PlainRam a block.length) :
    writeBlock a block s = .ok () (s.setMem (s.mem.store a block)) := by
  induction block generalizing s a with
  | nil => rw [writeBlock, Memory.store]; rfl
  | cons v rest ih =>
    have plainRest : (s.setMem (s.mem.write a v)).PlainRam (a + 1) rest.length :=
      { inSpace := by have := plain.inSpace; rw [List.length_cons] at this; omega
        canon := fun k low high => plain.canon k (by omega) (by rw [List.length_cons]; omega)
        ram := fun k low high => plain.ram k (by omega) (by rw [List.length_cons]; omega) }
    rw [writeBlock, memWrite_plainRam plain, Acc.bind_ok, ih plainRest, Memory.store]
    rfl

/-- The loop of R295 is a block of zeros. -/
theorem zeroBlock_eq_writeBlock (n a : Nat) (s : State) :
    zeroBlock a n s = writeBlock a (List.replicate n 0x00#8) s := by
  induction n generalizing a s with
  | zero => rfl
  | succ n ih => simp only [zeroBlock, List.replicate_succ, writeBlock, ih]

/-! ### Reads of RAM -/

/-- `read16` with both bytes in RAM leaves the state as it was (R52, R61). -/
theorem read16_ram {s : State} {a : Word} (low : s.target a = some .ram)
    (high : s.target (s.highAddr a) = some .ram) :
    read16 a s =
      .ok (BitVec.ofNat 16 ((s.cell (s.highAddr a)).toNat * 256 + (s.cell a).toNat)) s := by
  have afterLow : s.afterRead a = s := by simp only [State.afterRead, low]
  have afterHigh : s.afterRead (s.highAddr a) = s := by simp only [State.afterRead, high]
  have attached : s.WordAttached a := 
    ⟨Option.isSome_of_eq_some low, Option.isSome_of_eq_some high⟩
  rw [read16_attached attached]
  simp only [State.wordAt, State.afterReadWord, afterLow, afterHigh, State.byteAt, low, high]

/-- The high byte of the reset vector stands at 0xFFFD under either setting (R61, R296). -/
theorem State.highAddr_resetVector (s : State) : s.highAddr 0xFFFC#16 = 0xFFFD#16 := by
  unfold State.highAddr
  split <;> rfl

/-! ### The mirror calls of setup -/

/-- The mirrors of internal RAM (R64). -/
def ramRun : Mirror := { lo := 0x0800, canon := 0x0000, len := 0x0800, count := 3 }

/-- The mirror of a 16 KB image (R66). -/
def prgRun : Mirror := { lo := 0xC000, canon := 0x8000, len := 0x4000, count := 1 }

/-- The mirrors of the I/O register block (R65). -/
def ioRun : Mirror := { lo := 0x2008, canon := 0x2000, len := 0x0008, count := 1023 }

/-- The mirror table before the I/O mirrors are recorded: a 16 KB image has a mirror (R291, R292). -/
def prgMirrors (image : List Byte) : List Mirror :=
  if image.length = 16384 then [prgRun, ramRun] else [ramRun]

/-- The mirror table a launch leaves (R291–R293). -/
def launchMirrors (image : List Byte) : List Mirror := ioRun :: prgMirrors image

theorem prgMirrors_cases (image : List Byte) :
    (image.length = 16384 ∧ prgMirrors image = [prgRun, ramRun]) ∨
      (image.length ≠ 16384 ∧ prgMirrors image = [ramRun]) := by
  by_cases h : image.length = 16384
  · exact .inl ⟨h, if_pos h⟩
  · exact .inr ⟨h, if_neg h⟩

theorem mirrorRanges_ok {canon : Range} {ms : List Range} {table : List Mirror}
    (canonWf : canon.wf = true) (rangesWf : ∀ m ∈ ms, m.wf = true)
    (lengths : ∀ m ∈ ms, m.size = canon.size)
    (noChain : Mirror.tableWf (recordMirrors canon ms table) = true) :
    mirrorRanges canon ms table = .ok (recordMirrors canon ms table) := by
  have rangesWf : ms.all Range.wf = true := List.all_eq_true.2 rangesWf
  have lengths : canon.mirrorLengthsWf ms = true :=
    List.all_eq_true.2 fun m hm => decide_eq_true (lengths m hm)
  simp [mirrorRanges, canonWf, rangesWf, lengths, noChain]

theorem recordMirrors_append (canon : Range) (ms : List Range) (m : Range) (table : List Mirror) :
    recordMirrors canon (ms ++ [m]) table = recordMirror canon m (recordMirrors canon ms table) := by
  induction ms generalizing table with
  | nil => rfl
  | cons _ rest ih => exact ih _

/-- The I/O mirror ranges go on where each other end, so they make one run (R65, log 10). -/
theorem recordMirrors_io {table : List Mirror} (h : ∀ e ∈ table.head?, e.canon ≠ 0x2000) (n : Nat) :
    recordMirrors { lo := 0x2000, hi := 0x2008 }
        ((List.range (n + 1)).map fun k =>
          { lo := 0x2000 + 8 * (k + 1), hi := 0x2008 + 8 * (k + 1) }) table =
      { ioRun with count := n + 1 } :: table := by
  induction n with
  | zero =>
    cases table with
    | nil => rfl
    | cons e rest =>
      have other : e.canon ≠ 0x2000 := h e rfl
      exact if_neg fun same => other same.1
  | succ n ih =>
    rw [List.range_succ, List.map_append, List.map_singleton, recordMirrors_append, ih]
    exact if_pos ⟨rfl, rfl, by simp only [Mirror.hi, ioRun]; omega⟩

theorem mirrorRanges_ram :
    mirrorRanges { lo := 0x0000, hi := 0x0800 } ramMirrorRanges [] = .ok [ramRun] := by
  decide

theorem mirrorRanges_prg :
    mirrorRanges { lo := 0x8000, hi := 0xC000 } [{ lo := 0xC000, hi := 0x10000 }] [ramRun] =
      .ok [prgRun, ramRun] := by
  decide

theorem mirrorRanges_io (image : List Byte) :
    mirrorRanges { lo := 0x2000, hi := 0x2008 } ioMirrorRanges (prgMirrors image) =
      .ok (launchMirrors image) := by
  have heads : ∀ e ∈ (prgMirrors image).head?, e.canon ≠ 0x2000 := by
    rcases prgMirrors_cases image with ⟨-, e⟩ | ⟨-, e⟩ <;> rw [e] <;> decide
  have noChain : Mirror.tableWf (launchMirrors image) = true := by
    unfold launchMirrors
    rcases prgMirrors_cases image with ⟨-, e⟩ | ⟨-, e⟩ <;> rw [e] <;> decide
  have recorded : recordMirrors { lo := 0x2000, hi := 0x2008 } ioMirrorRanges (prgMirrors image) =
    launchMirrors image := recordMirrors_io heads 1022
  rw [mirrorRanges_ok (by decide) ?wf ?lengths (recorded ▸ noChain), recorded]
  case wf =>
    simp only [ioMirrorRanges, List.forall_mem_map, List.mem_range, Range.wf, Bool.and_eq_true,
      decide_eq_true_eq]
    omega
  case lengths =>
    simp only [ioMirrorRanges, List.forall_mem_map, Range.size]
    omega

theorem withMirrors_ok {canon : Range} {ms : List Range} {s : State} {table : List Mirror}
    (h : mirrorRanges canon ms s.mirrors = .ok table) (k : State → Answer) :
    withMirrors canon ms s k = k (s.setMirrors table) := by
  rw [withMirrors, h]

/-- Setup step 2's mirror on the table of step 1 (R292). -/
theorem prgMirror_ok {s : State} (h : s.mirrors = [ramRun]) (image : List Byte) (k : State → Answer) :
    prgMirror image s k = k (s.setMirrors (prgMirrors image)) := by
  rcases prgMirrors_cases image with ⟨short, e⟩ | ⟨long, e⟩
  · rw [prgMirror, if_pos short, withMirrors_ok (table := [prgRun, ramRun])
      (by rw [h]; exact mirrorRanges_prg), e]
  · rw [prgMirror, if_neg long, e, ← h]
    rfl

/-! ### Addresses on the default map -/

theorem imageWf_iff (image : List Byte) :
    Config.imageWf image = true ↔ image.length = 16384 ∨ image.length = 32768 := by
  simp [Config.imageWf]

/-- The default map's blocks (R63). -/
theorem owner_defaultMap (c : Word) :
    owner State.reset.attach c =
      if 0x8000 ≤ c.toNat then some .ram
      else if 0x2000 ≤ c.toNat ∧ c.toNat < 0x2008 then some .io
      else if c.toNat < 0x0800 then some .ram
      else none := by
  have := c.isLt
  simp [owner, State.reset, Config.platformTargets, this]

/-- RAM, the I/O register block and the image's own addresses are no mirror addresses (R64–R66). -/
theorem resolve_launchMirrors_self {image : List Byte} {a : Word}
    (h : a.toNat < 0x0800 ∨ (0x2000 ≤ a.toNat ∧ a.toNat < 0x2008) ∨
      (0x8000 ≤ a.toNat ∧ a.toNat < 0x8000 + image.length)) :
    resolve (launchMirrors image) a = a := by
  unfold launchMirrors
  rcases prgMirrors_cases image with ⟨short, e⟩ | ⟨long, e⟩
  · rw [e, ioRun, prgRun, ramRun, resolve_entry, if_neg (by omega), resolve_entry,
      if_neg (by omega), resolve_entry, if_neg (by omega), resolve_nil]
  · rw [e, ioRun, ramRun, resolve_entry, if_neg (by omega), resolve_entry, if_neg (by omega),
      resolve_nil]

/-- The upper 16 KB of the PRG block shows the image's end, whichever length the image has (R66). -/
theorem resolve_launchMirrors_top {image : List Byte} {k : Nat} (imageWf : Config.imageWf image = true)
    (low : 0xC000 ≤ k) (high : k < 0x10000) :
    resolve (launchMirrors image) (BitVec.ofNat 16 k) =
      BitVec.ofNat 16 (0x8000 + (image.length - (0x10000 - k))) := by
  rcases (imageWf_iff image).1 imageWf with short | long
  · have table : launchMirrors image = [ioRun, prgRun, ramRun] :=
      congrArg (ioRun :: ·) (if_pos short)
    rw [table, ioRun, prgRun, resolve_entry, toNat_ofNat16 high, if_neg (by omega), resolve_entry,
      toNat_ofNat16 high, if_pos (by omega), short]
    exact congrArg _ (by omega)
  · rw [resolve_launchMirrors_self (by rw [toNat_ofNat16 high]; omega), long]
    exact congrArg _ (by omega)

/-! ### The launch -/

/-- Storage after the image and the zeros of RAM are written (R291, R295). -/
def launchStorage (initial : Memory) (image : List Byte) : Memory :=
  (initial.store 0x8000 image).store 0x0000 (List.replicate 0x0800 0x00#8)

/-- No entry lies at an address of the I/O register block, taken mod 65536 (R290). -/
def Memory.AvoidsIo (m : Memory) : Prop :=
  ∀ c ∈ m, ¬ (0x2000 ≤ c.1 % 0x10000 ∧ c.1 % 0x10000 < 0x2008)

/-- The word in the last four bytes of the image that holds the reset vector (R296). -/
def resetVector (image : List Byte) : Word :=
  BitVec.ofNat 16 ((image.getD (image.length - 3) 0x00#8).toNat * 256 +
    (image.getD (image.length - 4) 0x00#8).toNat)

/-- The state a launch on the default map leaves (R34, R297). -/
def launchState (params : Params) (initial : Memory) (image : List Byte) : State :=
  { State.reset with
    pc := resetVector image
    mirrors := launchMirrors image
    mem := launchStorage initial image
    params := params }

section
variable {initial : Memory} {image : List Byte}

theorem read_launchStorage_ram {k : Nat} (h : k < 0x0800) :
    (launchStorage initial image).read k = 0x00#8 := by
  have inside : k < (List.replicate 0x0800 0x00#8).length := by rwa [List.length_replicate]
  have stored := Memory.read_store_inside (m := initial.store 0x8000 image) (a := 0) inside
  rwa [Nat.zero_add, List.getD_replicate _ h] at stored

theorem read_launchStorage_image {k : Nat} (h : k < image.length) :
    (launchStorage initial image).read (0x8000 + k) = image.getD k 0x00#8 := by
  rw [launchStorage, Memory.read_store_outside (by rw [List.length_replicate]; omega),
    Memory.read_store_inside h]

theorem read_launchStorage_io {k : Nat} (h : k < 8) (noIo : initial.AvoidsIo) :
    (launchStorage initial image).read (0x2000 + k) = 0x00#8 := by
  rw [launchStorage, Memory.read_store_outside (by rw [List.length_replicate]; omega),
    Memory.read_store_outside (by omega),
    Memory.read_of_not_listed fun c hc same => noIo c hc (by omega)]
  rfl

/-- The launch state's cells where it has no mirror addresses. -/
theorem cell_launchState {params : Params} {k : Nat} (inSpace : k < 0x10000)
    (h : k < 0x0800 ∨ (0x2000 ≤ k ∧ k < 0x2008) ∨ (0x8000 ≤ k ∧ k < 0x8000 + image.length)) :
    (launchState params initial image).cell (BitVec.ofNat 16 k) =
      (launchStorage initial image).read k := by
  have self : (launchState params initial image).canon (BitVec.ofNat 16 k) = BitVec.ofNat 16 k :=
    resolve_launchMirrors_self (by rwa [toNat_ofNat16 inSpace])
  rw [State.cell, self, toNat_ofNat16 inSpace]
  rfl

/-! ### The reset vector -/

variable {s : State} (mirrors : s.mirrors = launchMirrors image)
include mirrors

variable (imageWf : Config.imageWf image = true)
include imageWf

/-- A cell of the last 16 KB is one of the image's end (R66). -/
theorem cell_top_of_launchMirrors {k : Nat} (low : 0xC000 ≤ k) (high : k < 0x10000) :
    s.cell (BitVec.ofNat 16 k) = s.mem.read (0x8000 + (image.length - (0x10000 - k))) := by
  have lengths := (imageWf_iff image).1 imageWf
  rw [State.cell, State.canon, mirrors, resolve_launchMirrors_top imageWf low high,
    toNat_ofNat16 (by omega)]

variable (attach : s.attach = State.reset.attach)
include attach

theorem target_top_of_launchMirrors {k : Nat} (low : 0xC000 ≤ k) (high : k < 0x10000) :
    s.target (BitVec.ofNat 16 k) = some .ram := by
  have lengths := (imageWf_iff image).1 imageWf
  rw [State.target, State.canon, attach, mirrors, resolve_launchMirrors_top imageWf low high,
    owner_defaultMap, toNat_ofNat16 (by omega), if_pos (by omega)]

/-- Setup step 5 reads the vector from the image's end (R296). -/
theorem loadVector_of_launchStorage (mem : s.mem = launchStorage initial image) :
    loadVector s = .ok () ((s.setPc (resetVector image)).setRun .running) := by
  have lengths := (imageWf_iff image).1 imageWf
  have imageByte {k : Nat} (low : 0xC000 ≤ k) (high : k < 0x10000) :
      s.cell (BitVec.ofNat 16 k) = image.getD (image.length - (0x10000 - k)) 0x00#8 := by
    rw [cell_top_of_launchMirrors mirrors imageWf low high, mem,
      read_launchStorage_image (by omega)]
  have lowByte : s.cell 0xFFFC#16 = image.getD (image.length - 4) 0x00#8 :=
    imageByte (k := 0xFFFC) (by decide) (by decide)
  have highByte : s.cell 0xFFFD#16 = image.getD (image.length - 3) 0x00#8 :=
    imageByte (k := 0xFFFD) (by decide) (by decide)
  have lowRam : s.target 0xFFFC#16 = some .ram :=
    target_top_of_launchMirrors mirrors imageWf attach (k := 0xFFFC) (by decide) (by decide)
  have highRam : s.target 0xFFFD#16 = some .ram :=
    target_top_of_launchMirrors mirrors imageWf attach (k := 0xFFFD) (by decide) (by decide)
  rw [loadVector, read16_ram lowRam (s.highAddr_resetVector ▸ highRam), s.highAddr_resetVector,
    lowByte, highByte]
  rfl

end

/-! ### The five steps -/

/-- Before the other mirrors are recorded the image's addresses are RAM of their own (R63, R291). -/
theorem plainRam_image {image : List Byte} (imageWf : Config.imageWf image = true) {s : State}
    (attach : s.attach = State.reset.attach) (mirrors : s.mirrors = [ramRun]) :
    s.PlainRam 0x8000 image.length := by
  have lengths := (imageWf_iff image).1 imageWf
  have canon {k : Nat} (low : 0x8000 ≤ k) (high : k < 0x8000 + image.length) :
      s.canon (BitVec.ofNat 16 k) = BitVec.ofNat 16 k := by
    rw [State.canon, mirrors, ramRun, resolve_entry, toNat_ofNat16 (by omega), if_neg (by omega),
      resolve_nil]
  refine ⟨by omega, fun _ => canon, fun k low high => ?_⟩
  rw [State.target, canon low high, attach, owner_defaultMap, toNat_ofNat16 (by omega), if_pos low]

/-- The addresses R295 writes to are RAM of their own (R63, R64). -/
theorem plainRam_internal {image : List Byte} {s : State} (attach : s.attach = State.reset.attach)
    (mirrors : s.mirrors = launchMirrors image) : s.PlainRam 0x0000 0x0800 := by
  have canon {k : Nat} (h : k < 0x0800) : s.canon (BitVec.ofNat 16 k) = BitVec.ofNat 16 k := by
    rw [State.canon, mirrors, resolve_launchMirrors_self (.inl (by rwa [toNat_ofNat16 (by omega)]))]
  refine ⟨by decide, fun k _ high => canon (by omega), fun k _ high => ?_⟩
  rw [State.target, canon (by omega), attach, owner_defaultMap, toNat_ofNat16 (by omega),
    if_neg (by omega), if_neg (by omega), if_pos (by omega)]

/-- Setup step 4's loop on the table of step 3 (R295). -/
theorem zeroBlock_internal {image : List Byte} {s : State} (attach : s.attach = State.reset.attach)
    (mirrors : s.mirrors = launchMirrors image) :
    zeroBlock 0x0000 0x0800 s =
      .ok () (s.setMem (s.mem.store 0x0000 (List.replicate 0x0800 0x00#8))) := by
  have plain : s.PlainRam 0x0000 (List.replicate 0x0800 0x00#8).length := by
    rw [List.length_replicate]
    exact plainRam_internal attach mirrors
  rw [zeroBlock_eq_writeBlock, writeBlock_plainRam plain]

/-- The five steps of setup on a bus with the default attachments (R291–R297). -/
theorem setupSteps_defaultMap {image : List Byte} (imageWf : Config.imageWf image = true) {s : State}
    (attach : s.attach = State.reset.attach) (mirrors : s.mirrors = []) (ext : s.ext = []) :
    setupSteps image s = .next (launchState s.params s.mem image) := by
  have imagePlain : (s.setMirrors [ramRun]).PlainRam 0x8000 image.length :=
    plainRam_image imageWf attach rfl
  -- a hypothesis of a rule is given by tactic where its state is known only once `rw` has found the call
  rw [setupSteps, withMirrors_ok (table := [ramRun]) (by rw [mirrors]; exact mirrorRanges_ram),
    writeBlock_plainRam imagePlain, afterAccess, prgMirror_ok rfl,
    withMirrors_ok (table := launchMirrors image) (by exact mirrorRanges_io image),
    zeroBlock_internal (image := image) (by exact attach) (by rfl), afterAccess,
    loadVector_of_launchStorage (initial := s.mem) (by rfl) imageWf (by exact attach) (by rfl),
    Acc.finish_ok]
  obtain ⟨⟩ := s
  cases attach
  cases ext
  rfl

/-- Setup's second precondition on the default map (R290). -/
theorem ioBlocksEmpty_of_defaultMap {s : State} (attach : s.attach = State.reset.attach)
    (noIo : s.mem.AvoidsIo) : ioBlocksEmpty s = true := by
  refine List.all_eq_true.2 fun c hc => decide_eq_true ?_
  rw [attach, owner_defaultMap, BitVec.toNat_ofNat, if_neg (noIo c hc)]
  split
  · decide
  · split <;> decide

/-- Setup on a fresh bus with the default attachments: none of its refusals, then its five steps. -/
theorem setup_defaultMap {image : List Byte} (imageWf : Config.imageWf image = true) {s : State}
    (attach : s.attach = State.reset.attach) (mirrors : s.mirrors = []) (ext : s.ext = [])
    (noIo : s.mem.AvoidsIo) : setup image s = .next (launchState s.params s.mem image) := by
  have fresh : ¬ (!s.mirrors.isEmpty) = true := by rw [mirrors]; decide
  have ioEmpty : ¬ (!ioBlocksEmpty s) = true := by
    rw [ioBlocksEmpty_of_defaultMap attach noIo]; decide
  have lengthOk : ¬ (!Config.imageWf image) = true := by rw [imageWf]; decide
  rw [setup, if_neg fresh, if_neg ioEmpty, if_neg lengthOk,
    setupSteps_defaultMap imageWf attach mirrors ext]

/-- A launch on the default map, whole: the registers before it are of no account (R35). -/
theorem launch_platformTargets {params : Params} {initial : Memory} {image : List Byte} {regs : State}
    (imageWf : Config.imageWf image = true) (noIo : initial.AvoidsIo) :
    launch params Config.platformTargets initial image regs =
      .next (launchState params initial image) := by
  have attached : freshBus params Config.platformTargets initial regs =
    .ok { regs with attach := State.reset.attach, mirrors := [], mem := initial, params := params,
                    ext := [] } := rfl
  rw [launch, attached]
  exact setup_defaultMap imageWf rfl rfl rfl noIo

end Sys2Proof.Machine

namespace Sys2Proof.Claims
open Sys2Proof.Machine

/-- The table a launch leaves is one of the default map's two (R64–R66). -/
theorem defaultMap_launchState (params : Params) (initial : Memory) (image : List Byte) :
    DefaultMap (launchState params initial image) := by
  refine ⟨rfl, ?_⟩
  rcases prgMirrors_cases image with ⟨-, short⟩ | ⟨-, long⟩
  · exact .inr ⟨ioRun, ramRun, rfl, congrArg (ioRun :: ·) short⟩
  · exact .inl (congrArg (ioRun :: ·) long)

/-- Settles O2: the launch leaves `launchState`, whose cells in RAM, in the I/O register block and in
the image are what its storage holds there. -/
theorem launchOnDefaultMap : Obligations.LaunchOnDefaultMap := by
  unfold Obligations.LaunchOnDefaultMap
  intro params initial image regs imageWf noIo
  have lengths := (imageWf_iff image).1 imageWf
  refine ⟨_, launch_platformTargets imageWf noIo, rfl, rfl, defaultMap_launchState _ _ _, rfl,
    fun k ram => ?_, fun k io => ?_, fun k inImage => ?_, rfl⟩
  · rw [cell_launchState (by omega) (by omega), read_launchStorage_ram ram]
  · rw [cell_launchState (by omega) (by omega), read_launchStorage_io io noIo]
  · rw [cell_launchState (by omega) (by omega), read_launchStorage_image inImage]

end Sys2Proof.Claims
end

section
/-!
PROOF. The decoder and the encoder (30_encoding.md R90–R95): they are inverse to each other, and the
bytes the decoder has no row for are the 105 of R94.
-/
namespace Sys2Proof

/-! ### What the decoder makes of the encoder's bytes -/

/-- The converse of `decode_ok`. -/
theorem decode_of_makes {op : Byte} {sh : Shape} {operands : List Byte} {i : Instr}
    (row : opcodeShape op = some sh) (makes : sh.Makes operands i) (rest : List Byte) :
    decode (op :: (operands ++ rest)) = .ok (i, rest) := by
  dsimp only [decode]
  rw [row]
  cases makes <;> rfl

/-- A 16-bit operand put together from its two bytes (R91, R92). -/
theorem operandWord_low_high (ww : Word) : operandWord (operandLow ww) (operandHigh ww) = ww :=
  (BitVec.extractLsb'_append_extractLsb'_eq_extractLsb' rfl).trans BitVec.extractLsb'_eq_self

theorem operandLow_operandWord (ll hh : Byte) : operandLow (operandWord ll hh) = ll :=
  BitVec.extractLsb'_append_eq_right

theorem operandHigh_operandWord (ll hh : Byte) : operandHigh (operandWord ll hh) = hh :=
  BitVec.extractLsb'_append_eq_left

theorem Shape.makes_word (mk : Word → Instr) (ww : Word) :
    (Shape.word mk).Makes [operandLow ww, operandHigh ww] (mk ww) := by
  have makes := Shape.Makes.word mk (operandLow ww) (operandHigh ww)
  rwa [operandWord_low_high] at makes

/-- Every row has an instruction, whatever its operands. -/
theorem Shape.exists_makes (sh : Shape) : ∃ operands i, sh.Makes operands i := by
  cases sh with
  | plain i => exact ⟨_, _, .plain i⟩
  | byte mk => exact ⟨_, _, .byte mk 0#8⟩
  | word mk => exact ⟨_, _, .word mk 0#8 0#8⟩

set_option maxRecDepth 4000 in
/-- The bytes of an instruction are an opcode byte with a row, and operand bytes that make the
instruction of that row's shape: none, one or two (R91, R94). -/
theorem encode_makes (i : Instr) :
    ∃ op operands sh, encode i = op :: operands ∧ opcodeShape op = some sh ∧ sh.Makes operands i := by
  cases i
  case aslAcc | lsrAcc | rolAcc | rorAcc | pha | php | pla | plp | rts | brk | rti | tax | tay | txa
      | tya | tsx | txs | inx | iny | dex | dey | clc | sec | cli | sei | clv | cld | sed | nop =>
    exact ⟨_, _, _, rfl, rfl, .plain _⟩
  case ldaAbs | ldaAbsx | ldaAbsy | ldxAbs | ldxAbsy | ldyAbs | ldyAbsx | staAbs | staAbsx | staAbsy
      | stxAbs | styAbs | adcAbs | adcAbsx | adcAbsy | sbcAbs | sbcAbsx | sbcAbsy | andAbs | andAbsx
      | andAbsy | oraAbs | oraAbsx | oraAbsy | eorAbs | eorAbsx | eorAbsy | aslAbs | aslAbsx | lsrAbs
      | lsrAbsx | rolAbs | rolAbsx | rorAbs | rorAbsx | cmpAbs | cmpAbsx | cmpAbsy | cpxAbs | cpyAbs
      | bitAbs | jmpAbs | jmpInd | jsr | incAbs | incAbsx | decAbs | decAbsx =>
    exact ⟨_, _, _, rfl, rfl, Shape.makes_word _ _⟩
  -- what is left has one operand byte
  all_goals exact ⟨_, _, _, rfl, rfl, .byte _ _⟩

/-! ### What the encoder makes of the decoder's instruction -/

/-- A row says how the instructions of its shape are encoded (R91). -/
def Shape.EncodesAs (sh : Shape) (op : Byte) : Prop :=
  match sh with
  | .plain i => encode i = [op]
  | .byte mk => ∀ nn, encode (mk nn) = [op, nn]
  | .word mk => ∀ ww, encode (mk ww) = encodeWord op ww

theorem Shape.EncodesAs.encode_of_makes {sh : Shape} {op : Byte} {operands : List Byte} {i : Instr}
    (h : sh.EncodesAs op) (makes : sh.Makes operands i) : encode i = op :: operands := by
  cases makes with
  | plain i => exact h
  | byte mk nn => exact h nn
  | word mk ll hh =>
    rw [h (operandWord ll hh), encodeWord, operandLow_operandWord, operandHigh_operandWord]

theorem mem_of_lookupOpcode {rows : List OpcodeRow} {op : Byte} {sh : Shape}
    (h : lookupOpcode rows op = some sh) : (op, sh) ∈ rows := by
  induction rows with
  | nil => cases h
  | cons row rest ih =>
    obtain ⟨b, sh'⟩ := row
    rw [lookupOpcode] at h
    split at h
    · rename_i same
      cases h
      cases same
      exact List.mem_cons_self
    · exact List.mem_cons_of_mem _ (ih h)

/-- The opcode map and the encoder agree, row by row (R94). -/
theorem encodesAs_of_mem_opcodeRows : ∀ row ∈ opcodeRows, row.2.EncodesAs row.1 := by
  simp only [opcodeRows, opcodeRowsLoadStore, opcodeRowsArith, opcodeRowsShift, opcodeRowsCompare,
    opcodeRowsBranch, opcodeRowsStack, opcodeRowsTransfer, List.forall_mem_append,
    List.forall_mem_cons, List.not_mem_nil, false_implies, implies_true, and_true, Shape.EncodesAs]
  and_intros <;> intros <;> rfl

theorem encode_of_row {op : Byte} {sh : Shape} {operands : List Byte} {i : Instr}
    (row : opcodeShape op = some sh) (makes : sh.Makes operands i) : encode i = op :: operands :=
  (encodesAs_of_mem_opcodeRows _ (mem_of_lookupOpcode row)).encode_of_makes makes

/-! ### Bytes without a row -/

/-- The decoder refuses a byte by name just when it has no row (R112). -/
theorem decode_illegal_iff (op : Byte) (rest : List Byte) :
    decode (op :: rest) = .error (.illegalOpcode op) ↔ opcodeShape op = none := by
  refine ⟨fun refused => ?_, fun noRow => by simp only [decode, noRow]⟩
  cases row : opcodeShape op with
  | none => rfl
  | some sh =>
    dsimp only [decode] at refused
    rw [row] at refused
    match sh, rest, refused with
    | .plain _, _, refused => cases refused
    | .byte _, [], refused => cases refused
    | .byte _, _ :: _, refused => cases refused
    | .word _, [], refused => cases refused
    | .word _, [_], refused => cases refused
    | .word _, _ :: _ :: _, refused => cases refused

end Sys2Proof

namespace Sys2Proof.Claims
open Sys2Proof.Machine

/-- Settles O6: the encoder's bytes are an opcode byte with a row and the operand bytes of its
shape, and that is what the decoder reads. -/
theorem decodeEncodeAgree : Obligations.DecodeEncodeAgree := by
  unfold Obligations.DecodeEncodeAgree
  intro i rest
  obtain ⟨op, operands, sh, encoding, row, makes⟩ := encode_makes i
  rw [encoding, List.cons_append]
  exact decode_of_makes row makes rest

/-- Settles O7: what the decoder reads is an opcode byte with a row and the operand bytes of its
shape, and that row says how the instruction is encoded. -/
theorem decodedBytesAreEncoded : Obligations.DecodedBytesAreEncoded := by
  unfold Obligations.DecodedBytesAreEncoded
  intro bs i rest decoded
  obtain ⟨op, operands, sh, rfl, row, makes⟩ := decode_ok decoded
  rw [encode_of_row row makes, List.cons_append]

/-- The bytes without a row are those R94 lists. -/
theorem opcodeShape_eq_none_iff : ∀ op, opcodeShape op = none ↔ op ∈ illegalBytes := by
  have rowless : ∀ op, (opcodeShape op).isNone = true ↔ op ∈ illegalBytes := by decide
  simpa only [Option.isNone_iff_eq_none] using rowless

/-- Settles O8: the decoder refuses the bytes without a row, which are the listed ones. -/
theorem illegalBytesRefused : Obligations.IllegalBytesRefused := by
  unfold Obligations.IllegalBytesRefused
  exact ⟨rfl, by decide, fun op rest =>
    (decode_illegal_iff op rest).trans (opcodeShape_eq_none_iff op)⟩

/-- Settles O9: each word is the encoding of its instruction, written out. -/
theorem sampleWordsDecode : Obligations.SampleWordsDecode := by
  unfold Obligations.SampleWordsDecode
  exact ⟨decodeEncodeAgree (.ldaImm 0x10#8) [], decodeEncodeAgree (.staAbs 0x0200#16) [],
    decodeEncodeAgree (.adcImm 0x50#8) [], decodeEncodeAgree (.rorAbs 0x0200#16) [],
    decodeEncodeAgree (.cmpImm 0x20#8) [], decodeEncodeAgree (.bne 0xF8#8) [],
    decodeEncodeAgree (.jmpInd 0x02FF#16) [], decodeEncodeAgree (.jsr 0x8010#16) [],
    decodeEncodeAgree .inx [0xEA#8]⟩

end Sys2Proof.Claims
end

section
/-!
PROOF. What an instruction, and then a step, can change at all (10_state.md R21, R22, R26, R29;
20_memory.md R58–R60): said once for every instruction by `exec_changes` and once for a step by
`step_changes`; the frames and the invariant follow.
-/
namespace Sys2Proof.Machine

/-! ### The flags each rule writes (R26) -/

/-- `q` is `p` but for the flags of `fs`. -/
def Status.SameBut (fs : List Flag) (p q : Status) : Prop := ∀ f, f ∉ fs → q.flag f = p.flag f

section
variable (p : Status)

theorem Status.sameBut_setZN (r : Byte) : Status.SameBut [.z, .n] p (p.setZN r) := by
  intro f outside
  cases f <;> simp [Status.flag] at outside ⊢

theorem Status.sameBut_afterAdd (sum : Byte × Bool × Bool) :
    Status.SameBut [.c, .z, .n, .v] p (p.afterAdd sum) := by
  intro f outside
  cases f <;> simp [Status.flag, Status.afterAdd] at outside ⊢

theorem Status.sameBut_compare (reg v : Byte) :
    Status.SameBut [.c, .z, .n] p (p.compare reg v) := by
  intro f outside
  cases f <;> simp [Status.flag, Status.compare] at outside ⊢

theorem Status.sameBut_bitTest (a v : Byte) : Status.SameBut [.z, .n, .v] p (p.bitTest a v) := by
  intro f outside
  cases f <;> simp [Status.flag, Status.bitTest] at outside ⊢

theorem Status.sameBut_afterShift (rc : Byte × Bool) :
    Status.SameBut [.c, .z, .n] p (p.afterShift rc) := by
  intro f outside
  cases f <;> simp [Status.flag, Status.afterShift] at outside ⊢

theorem Status.sameBut_fromStack (v : Byte) :
    Status.SameBut [.c, .z, .n, .v, .i, .d] p (p.fromStack v) := by
  intro f outside
  cases f <;> simp [Status.flag, Status.fromStack] at outside ⊢

theorem Status.sameBut_setC (w : Bool) : Status.SameBut [.c] p (p.setC w) := by
  intro f outside
  cases f <;> simp [Status.flag] at outside ⊢

theorem Status.sameBut_setI (w : Bool) : Status.SameBut [.i] p (p.setI w) := by
  intro f outside
  cases f <;> simp [Status.flag] at outside ⊢

theorem Status.sameBut_setD (w : Bool) : Status.SameBut [.d] p (p.setD w) := by
  intro f outside
  cases f <;> simp [Status.flag] at outside ⊢

theorem Status.sameBut_setV (w : Bool) : Status.SameBut [.v] p (p.setV w) := by
  intro f outside
  cases f <;> simp [Status.flag] at outside ⊢

end

/-! ### What may change -/

/-- From `s` to `t` only the registers of `rs` and the flags of `fs` have changed, PC only if
`jump`, and the rest only as `Touches L` allows. -/
structure Changes (rs : List Register) (fs : List Flag) (jump : Bool) (L : List Word) (s t : State) :
    Prop where
  touches : Touches L s t
  registers : ∀ r, r ∉ rs → t.register r = s.register r
  flags : Status.SameBut fs s.p t.p
  pc : jump = false → t.pc = s.pc

/-- The register of R21 that a general register is. -/
def Reg.toRegister (r : Reg) : Register :=
  match r with
  | .a => .a
  | .x => .x
  | .y => .y

section
variable {rs : List Register} {fs : List Flag} {jump : Bool} {L : List Word} {s t u : State}

theorem Changes.trans (h : Changes rs fs jump L s t) (k : Changes rs fs jump L t u) :
    Changes rs fs jump L s u where
  touches := h.touches.trans k.touches
  registers := fun r outside => (k.registers r outside).trans (h.registers r outside)
  flags := fun f outside => (k.flags f outside).trans (h.flags f outside)
  pc := fun stays => (k.pc stays).trans (h.pc stays)

theorem OnlyAccess.changes (h : OnlyAccess L s t) : Changes rs fs jump L s t where
  touches := h.touches
  registers := fun r _ => by
    cases r with
    | a => exact h.regs.a
    | x => exact h.regs.x
    | y => exact h.regs.y
    | sp => exact h.sp
  flags := fun f _ => by rw [h.regs.p]
  pc := fun _ => h.regs.pc

theorem OnlyStack.changes (h : OnlyStack L s t) (sp : .sp ∈ rs) : Changes rs fs jump L s t where
  touches := h.touches
  registers := fun r outside => by
    cases r with
    | a => exact h.regs.a
    | x => exact h.regs.x
    | y => exact h.regs.y
    | sp => exact absurd sp outside
  flags := fun f _ => by rw [h.regs.p]
  pc := fun _ => h.regs.pc

theorem Changes.setP {p : Status} (h : Status.SameBut fs s.p p) : Changes rs fs jump L s (s.setP p) :=
  ⟨Touches.of_eq rfl rfl rfl rfl rfl rfl, fun _ _ => rfl, h, fun _ => rfl⟩

theorem Changes.setPc (s : State) (w : Word) : Changes rs fs true L s (s.setPc w) :=
  ⟨Touches.of_eq rfl rfl rfl rfl rfl rfl, fun _ _ => rfl, fun _ _ => rfl, fun stays => by cases stays⟩

theorem Changes.setSp (v : Byte) (sp : .sp ∈ rs) : Changes rs fs jump L s (s.setSp v) :=
  (OnlyStack.setSp L s v).changes sp

theorem State.register_setReg {r : Reg} {q : Register} (h : q ≠ r.toRegister) (s : State) (v : Byte) :
    (s.setReg r v).register q = s.register q := by
  cases r <;> cases q <;> simp [State.register, State.setReg, Reg.toRegister] at h ⊢

theorem Changes.setReg {r : Reg} (v : Byte) (h : r.toRegister ∈ rs) :
    Changes rs fs jump L s (s.setReg r v) where
  touches := by cases r <;> exact Touches.of_eq rfl rfl rfl rfl rfl rfl
  registers := fun _ outside => State.register_setReg (by rintro rfl; exact outside h) s v
  flags := fun _ _ => by cases r <;> rfl
  pc := fun _ => by cases r <;> rfl

theorem Changes.putReg {r : Reg} (v : Byte) (h : r.toRegister ∈ rs) :
    Changes rs [.z, .n] jump L s (s.putReg r v) := by
  refine (Changes.setReg v h).trans (Changes.setP ?_)
  have flags : (s.setReg r v).p = s.p := by cases r <;> rfl
  rw [flags]
  exact s.p.sameBut_setZN v

end

/-! ### What each family may change -/

section
variable {jump : Bool} {s t : State}

theorem load_changes {r : Reg} {src : Source} (h : load r src s = .next t) :
    Changes [r.toRegister] [.z, .n] jump [] s t := by
  obtain ⟨u, access, rfl | ⟨v, rfl⟩⟩ := load_next h
  · exact access.changes
  · exact access.changes.trans (Changes.putReg v List.mem_cons_self)

theorem store_changes {v : Byte} {m : Mode} (h : store v m s = .next t) :
    Changes [] [] jump (m.cells s) s t :=
  (store_next h).changes

theorem addToA_changes (v : Byte) : Changes [.a] [.c, .z, .n, .v] jump [] s (addToA v s) :=
  (Changes.setReg (r := .a) _ List.mem_cons_self).trans (Changes.setP (s.p.sameBut_afterAdd _))

theorem addMemory_changes {f : Byte → Byte} {src : Source} (h : addMemory f src s = .next t) :
    Changes [.a] [.c, .z, .n, .v] jump [] s t := by
  obtain ⟨-, u, access, rfl | ⟨v, rfl⟩⟩ := addMemory_next h
  · exact access.changes
  · exact access.changes.trans (addToA_changes v)

theorem logic_changes {f : Byte → Byte → Byte} {src : Source} (h : logic f src s = .next t) :
    Changes [.a] [.z, .n] jump [] s t := by
  obtain ⟨u, access, rfl | ⟨v, rfl⟩⟩ := logic_next h
  · exact access.changes
  · exact access.changes.trans (Changes.putReg v List.mem_cons_self)

theorem shiftAccumulator_changes {f : Byte → Byte × Bool} (h : shiftAccumulator f s = .next t) :
    Changes [.a] [.c, .z, .n] jump [] s t := by
  cases h
  exact (Changes.setReg (r := .a) _ List.mem_cons_self).trans
    (Changes.setP (s.p.sameBut_afterShift _))

theorem shiftMemory_changes {f : Byte → Byte × Bool} {m : Mode} (h : shiftMemory f m s = .next t) :
    Changes [] [.c, .z, .n] jump (m.cells s) s t := by
  obtain ⟨u, access, rfl | ⟨rc, rfl⟩⟩ := shiftMemory_next h
  · exact access.changes
  · exact access.changes.trans (Changes.setP (u.p.sameBut_afterShift rc))

theorem stepMemory_changes {f : Byte → Byte} {m : Mode} (h : stepMemory f m s = .next t) :
    Changes [] [.z, .n] jump (m.cells s) s t := by
  obtain ⟨u, access, rfl | ⟨r, rfl⟩⟩ := stepMemory_next h
  · exact access.changes
  · exact access.changes.trans (Changes.setP (u.p.sameBut_setZN r))

theorem compareWith_changes {reg : Byte} {src : Source} (h : compareWith reg src s = .next t) :
    Changes [] [.c, .z, .n] jump [] s t := by
  obtain ⟨u, access, rfl | ⟨v, rfl⟩⟩ := compareWith_next h
  · exact access.changes
  · exact access.changes.trans (Changes.setP (u.p.sameBut_compare reg v))

theorem bitTest_changes {src : Source} (h : bitTest src s = .next t) :
    Changes [] [.z, .n, .v] jump [] s t := by
  obtain ⟨u, access, rfl | ⟨v, rfl⟩⟩ := bitTest_next h
  · exact access.changes
  · exact access.changes.trans (Changes.setP (u.p.sameBut_bitTest u.a v))

theorem branch_changes {cond : Bool} {rr : Byte} (h : branch cond rr s = .next t) :
    Changes [] [] true [] s t := by
  cases h
  split
  · exact Changes.setPc s _
  · exact (OnlyAccess.refl [] s).changes

theorem jumpIndirect_changes {ww : Word} (h : execJmpInd ww s = .next t) :
    Changes [] [] true [] s t := by
  obtain ⟨u, access, rfl | ⟨w, rfl⟩⟩ := jumpIndirect_next h
  · exact access.changes
  · exact access.changes.trans (Changes.setPc u w)

theorem push_changes {v : Byte} (h : Acc.finish (push v s) = .next t) :
    Changes [.sp] [] jump [stackAddr s.sp] s t :=
  (push_next h).changes List.mem_cons_self

theorem pla_changes (h : execPla s = .next t) : Changes [.a, .sp] [.z, .n] jump [] s t := by
  obtain ⟨u, stack, rfl | ⟨v, rfl⟩⟩ := pla_next h
  · exact stack.changes (by decide)
  · exact (stack.changes (by decide)).trans (Changes.putReg v List.mem_cons_self)

theorem plp_changes (h : execPlp s = .next t) :
    Changes [.sp] [.c, .z, .n, .v, .i, .d] jump [] s t := by
  rw [execPlp, Acc.finish_eq] at h
  cases h
  obtain ⟨u, stack, e | ⟨v, e⟩⟩ := pullStatus_next (s := s) rfl <;> rw [e]
  · exact stack.changes List.mem_cons_self
  · exact (stack.changes List.mem_cons_self).trans (Changes.setP (u.p.sameBut_fromStack v))

theorem jsr_changes {ww : Word} (h : execJsr ww s = .next t) :
    Changes [.sp] [] true [stackAddr s.sp, stackAddr (s.sp - 1#8)] s t := by
  obtain ⟨u, stack, rfl | rfl⟩ := jsr_next h
  · exact stack.changes List.mem_cons_self
  · exact (stack.changes List.mem_cons_self).trans (Changes.setPc u ww)

theorem rts_changes (h : execRts s = .next t) : Changes [.sp] [] true [] s t := by
  obtain ⟨u, stack, rfl | ⟨w, rfl⟩⟩ := rts_next h
  · exact stack.changes List.mem_cons_self
  · exact (stack.changes List.mem_cons_self).trans (Changes.setPc u w)

theorem rti_changes (h : execRti s = .next t) :
    Changes [.sp] [.c, .z, .n, .v, .i, .d] true [] s t := by
  obtain ⟨u, stack, rfl | ⟨v, w, pulls, last⟩⟩ := rti_next h
  · exact stack.changes List.mem_cons_self
  · have before : Changes [.sp] [.c, .z, .n, .v, .i, .d] true [] s w :=
      ((stack.changes List.mem_cons_self).trans (Changes.setP (u.p.sameBut_fromStack v))).trans
        (pulls.changes List.mem_cons_self)
    obtain rfl | ⟨pc, rfl⟩ := last
    · exact before
    · exact before.trans (Changes.setPc w pc)

/-- BRK may also halt (R229, R272). -/
theorem brk_changes (h : execBrk s = .next t) :
    ∃ u, Changes [.sp] [.i] jump [stackAddr s.sp] s u ∧ (t = u ∨ t = u.setRun .halted) := by
  obtain ⟨u, stack, rfl | rfl⟩ := brk_next h
  · exact ⟨t, stack.changes List.mem_cons_self, .inl rfl⟩
  · exact ⟨u.setP (u.p.setI true), (stack.changes List.mem_cons_self).trans
      (Changes.setP (u.p.sameBut_setI true)), .inr rfl⟩

end

/-! ### What an instruction may change -/

/-- What R21, R22, R26 and the addresses it stores to let an instruction change. -/
def InstrChanges (i : Instr) : State → State → Prop := fun s =>
  Changes (registersWritten i) (mnemonicOf i).flagsWritten (mnemonicOf i).mayJump (storedAddrs i s) s

/-- The one slot of PHA, PHP and BRK, as `storedAddrs` computes it. -/
theorem pushedAddrs_one (s : State) :
    ((List.range 1).map fun k => stackAddr (s.sp - BitVec.ofNat 8 k)) = [stackAddr s.sp] := by
  simp

/-- The two slots of JSR, as `storedAddrs` computes them. -/
theorem pushedAddrs_two (s : State) :
    ((List.range 2).map fun k => stackAddr (s.sp - BitVec.ofNat 8 k)) =
      [stackAddr s.sp, stackAddr (s.sp - 1#8)] := by
  simp [List.range_succ]

/-- Every next state of every instruction; BRK alone changes the run state besides (R229). -/
theorem exec_changes {i : Instr} {s t : State} (h : exec i s = .next t) :
    ∃ u, InstrChanges i s u ∧ (t = u ∨ i = .brk ∧ t = u.setRun .halted) := by
  unfold InstrChanges
  cases i
  case brk =>
    obtain ⟨u, changes, last⟩ := brk_changes h
    refine ⟨u, ?_, last.imp id fun halted => ⟨rfl, halted⟩⟩
    rw [storedAddrs]
    exact (pushedAddrs_one s) ▸ changes
  all_goals refine ⟨t, ?_, .inl rfl⟩
  case ldaImm | ldxImm | ldyImm => exact load_changes (src := .imm _) h
  case ldaZp | ldaZpx | ldaAbs | ldaAbsx | ldaAbsy | ldaIndx | ldaIndy | ldxZp
      | ldxZpy | ldxAbs | ldxAbsy | ldyZp | ldyZpx | ldyAbs | ldyAbsx =>
    exact load_changes h
  case staZp | staZpx | staAbs | staAbsx | staAbsy | staIndx | staIndy | stxZp | stxZpy | stxAbs
      | styZp | styZpx | styAbs =>
    exact store_changes h
  case adcImm | adcZp | adcZpx | adcAbs | adcAbsx | adcAbsy | adcIndx | adcIndy | sbcImm | sbcZp
      | sbcZpx | sbcAbs | sbcAbsx | sbcAbsy | sbcIndx | sbcIndy =>
    exact addMemory_changes h
  case andImm | oraImm | eorImm => exact logic_changes (src := .imm _) h
  case andZp | andZpx | andAbs | andAbsx | andAbsy | andIndx | andIndy | oraZp
      | oraZpx | oraAbs | oraAbsx | oraAbsy | oraIndx | oraIndy | eorZp | eorZpx | eorAbs
      | eorAbsx | eorAbsy | eorIndx | eorIndy =>
    exact logic_changes h
  case aslAcc | lsrAcc | rolAcc | rorAcc => exact shiftAccumulator_changes h
  case aslZp | aslZpx | aslAbs | aslAbsx | lsrZp | lsrZpx | lsrAbs | lsrAbsx | rolZp | rolZpx | rolAbs
      | rolAbsx | rorZp | rorZpx | rorAbs | rorAbsx =>
    exact shiftMemory_changes h
  case cmpImm | cpxImm | cpyImm => exact compareWith_changes (src := .imm _) h
  case cmpZp | cmpZpx | cmpAbs | cmpAbsx | cmpAbsy | cmpIndx | cmpIndy | cpxZp
      | cpxAbs | cpyZp | cpyAbs =>
    exact compareWith_changes h
  case bitZp | bitAbs => exact bitTest_changes h
  case bcc | bcs | beq | bne | bmi | bpl | bvc | bvs => exact branch_changes h
  case jmpAbs ww =>
    cases h
    exact Changes.setPc s ww
  case jmpInd => exact jumpIndirect_changes h
  case pha | php =>
    rw [storedAddrs]
    exact (pushedAddrs_one s) ▸ push_changes h
  case pla => exact pla_changes h
  case plp => exact plp_changes h
  case jsr =>
    rw [storedAddrs]
    exact (pushedAddrs_two s) ▸ jsr_changes h
  case rts => exact rts_changes h
  case rti => exact rti_changes h
  case tax | tay | txa | tya | tsx | inx | iny | dex | dey =>
    cases h
    exact Changes.putReg _ List.mem_cons_self
  case txs =>
    cases h
    exact Changes.setSp _ List.mem_cons_self
  case incZp | incZpx | incAbs | incAbsx | decZp | decZpx | decAbs | decAbsx =>
    exact stepMemory_changes h
  case clc | sec =>
    cases h
    exact Changes.setP (s.p.sameBut_setC _)
  case cli | sei =>
    cases h
    exact Changes.setP (s.p.sameBut_setI _)
  case clv =>
    cases h
    exact Changes.setP (s.p.sameBut_setV _)
  case cld | sed =>
    cases h
    exact Changes.setP (s.p.sameBut_setD _)
  case nop =>
    cases h
    exact (OnlyAccess.refl [] s).changes

/-- An instruction ends with the run state it began with, or it is BRK and has halted, or an access
of its own was unattached (R270–R272). -/
theorem exec_run {i : Instr} {s t : State} (h : exec i s = .next t) :
    t.run = s.run ∨ (i = .brk ∧ t.run = .halted) ∨
      ∃ a d, ¬ s.Attached a ∧ t.run = .faulted (.busFault a d) := by
  obtain ⟨u, changes, rfl | ⟨isBrk, rfl⟩⟩ := exec_changes h
  · exact changes.touches.run.imp id .inr
  · exact .inr (.inl ⟨isBrk, rfl⟩)

/-- B is in no list of R26 (R25). -/
theorem breakFlag_not_written (m : Mnemonic) : .b ∉ m.flagsWritten := by
  cases m <;> decide

/-! ### What a step may change -/

/-- A step leaves what some accesses of its own allow, with the run state set; B stays (R25). -/
theorem step_changes {s t : State} (h : step s = .next t) :
    ∃ L u r, Touches L s u ∧ u.p.b = s.p.b ∧ t = u.setRun r := by
  obtain ⟨-, fetchFault | ⟨u, fetched, -, rfl⟩ | ⟨i, u, -, fetched, -, executed⟩⟩ := step_next h
  · exact ⟨_, t, t.run, fetchFault.touches, by rw [fetchFault.p], rfl⟩
  · have pcBack : Touches [] u (u.setPc s.pc) := Touches.of_eq rfl rfl rfl rfl rfl rfl
    exact ⟨_, u.setPc s.pc, _, fetched.touches.trans pcBack, by rw [State.setPc_p, fetched.p], rfl⟩
  · obtain ⟨v, changes, last⟩ := exec_changes executed
    have b : v.p.b = u.p.b := changes.flags .b (breakFlag_not_written _)
    have touches := (fetched.touches.mono (by simp)).trans changes.touches
    refine ⟨_, v, t.run, touches, by rw [b, fetched.p], ?_⟩
    obtain rfl | ⟨-, rfl⟩ := last <;> rfl

end Sys2Proof.Machine

namespace Sys2Proof.Claims
open Sys2Proof.Machine

/-- Settles O54: a step keeps the tables and B, and every access keeps the form of storage and
stores only where storage is attached. -/
theorem invariantKept : Obligations.InvariantKept := by
  unfold Obligations.InvariantKept
  intro s t inv stepped
  obtain ⟨L, u, r, touches, b, rfl⟩ := step_changes stepped
  have bus : s.BusWf := inv.bus
  rw [State.BusWf, ← touches.attach, ← touches.mirrors] at bus
  exact ⟨touches.wf inv.storage, touches.owned inv.owned, bus, b.trans inv.breakFlag⟩

/-- Settles O5: no byte is listed, and the tables of the default map are checked as they stand. -/
theorem invariantAtReset : Obligations.InvariantAtReset := by
  unfold Obligations.InvariantAtReset
  exact ⟨State.reset_mem_wf, fun _ listed => absurd listed List.not_mem_nil,
    ⟨by decide, by decide, by decide⟩, rfl⟩

/-- Settles O49: what `exec_changes` says of the registers and of PC. -/
theorem registerFrame : Obligations.RegisterFrame := by
  unfold Obligations.RegisterFrame
  intro i s t executed
  obtain ⟨u, changes, last⟩ := exec_changes executed
  obtain rfl | ⟨-, rfl⟩ := last <;> exact ⟨changes.registers, changes.pc⟩

/-- Settles O50: what `exec_changes` says of the flags. -/
theorem flagFrame : Obligations.FlagFrame := by
  unfold Obligations.FlagFrame
  intro i s t executed
  obtain ⟨u, changes, last⟩ := exec_changes executed
  obtain rfl | ⟨-, rfl⟩ := last <;> exact changes.flags

/-- Settles O51: what `exec_changes` says of storage. -/
theorem memoryFrame : Obligations.MemoryFrame := by
  unfold Obligations.MemoryFrame
  intro i s t executed
  obtain ⟨u, changes, last⟩ := exec_changes executed
  obtain rfl | ⟨-, rfl⟩ := last <;> exact changes.touches.bytes

/-- Settles O52: what `step_changes` says of the tables, the parameters and the history. -/
theorem configurationFrame : Obligations.ConfigurationFrame := by
  unfold Obligations.ConfigurationFrame
  intro s t stepped
  obtain ⟨L, u, r, touches, -, rfl⟩ := step_changes stepped
  exact ⟨touches.attach, touches.mirrors, touches.params, touches.grows, touches.quiet⟩

end Sys2Proof.Claims
end

section
/-!
PROOF. How a step can end (40_fetch_decode_addressing.md R110–R115, 60_exceptions.md R270–R281): the
byte at PC and the instruction fetched belong together, a fetch that fails stops the step there, and
what the step refuses is R161's refusal.
-/
namespace Sys2Proof.Machine

/-! ### The instruction fetched -/

theorem Acc.toInstr_instr {α : Type} {r : Acc α} {mk : α → Instr} {i : Instr} {u : State}
    (h : r.toInstr mk = .instr i u) : ∃ v, i = mk v := by
  cases r with
  | ok v t => cases h; exact ⟨v, rfl⟩
  | stop t => cases h

theorem fetchOperands_makes {sh : Shape} {s u : State} {i : Instr}
    (h : fetchOperands sh s = .instr i u) : ∃ operands, sh.Makes operands i := by
  cases sh with
  | plain j => cases h; exact ⟨[], .plain i⟩
  | byte mk =>
    obtain ⟨nn, rfl⟩ := Acc.toInstr_instr h
    exact ⟨[nn], .byte mk nn⟩
  | word mk =>
    obtain ⟨ww, rfl⟩ := Acc.toInstr_instr h
    exact ⟨[operandLow ww, operandHigh ww], Shape.makes_word mk ww⟩

/-- Where a fetch leads: it has stopped the step; or it gives an instruction that the byte at PC and
some operand bytes make; or that byte is an ADC's or an SBC's and R161 refuses. -/
theorem fetchInstr_cases (s : State) :
    (∃ t, fetchInstr s = .stopped t) ∨
      ∃ sh, opcodeShape (s.byteAt s.pc) = some sh ∧
        ((∃ i u operands, fetchInstr s = .instr i u ∧ sh.Makes operands i ∧ OnlyFetch s u) ∨
          (fetchInstr s = .refused .decimalMode ∧ isDecimalOpcode (s.byteAt s.pc) = true ∧
            decimalRefused s = true)) := by
  by_cases attached : s.Attached s.pc
  · have only := fetchByte_attached_only attached
    have fetched := fetchInstr_attached attached
    cases row : opcodeShape (s.byteAt s.pc) with
    | none => exact .inl ⟨_, fetched.trans (dispatchOpcode_none row _ _)⟩
    | some sh =>
      rw [dispatchOpcode_some row, only.decimalRefused_eq] at fetched
      split at fetched
      next refused =>
        obtain ⟨decimal, refused⟩ := (Bool.and_eq_true _ _).mp refused
        exact .inr ⟨sh, rfl, .inr ⟨fetched, decimal, refused⟩⟩
      next =>
        rcases fetchOperands_cases sh _ with ⟨i, u, instr, operandsOnly, -⟩ | ⟨t, stopped, -⟩
        · obtain ⟨operands, makes⟩ := fetchOperands_makes instr
          exact .inr ⟨sh, rfl, .inl ⟨i, u, operands, fetched.trans instr, makes,
            only.trans operandsOnly⟩⟩
        · exact .inl ⟨t, fetched.trans stopped⟩
  · exact .inl ⟨_, by rw [fetchInstr, fetchByte_unattached attached]⟩

/-- The instruction fetched is the one the byte at PC begins. -/
theorem encode_of_fetchInstr {s u : State} {i : Instr} (h : fetchInstr s = .instr i u) :
    ∃ operands, encode i = s.byteAt s.pc :: operands := by
  rcases fetchInstr_cases s with ⟨t, e⟩ | ⟨sh, row, ⟨j, v, operands, e, makes, -⟩ | ⟨e, -⟩⟩ <;>
    rw [e] at h <;> cases h
  exact ⟨operands, encode_of_row row makes⟩

/-! ### What `exec` refuses -/

theorem addMemory_next_or_refused (f : Byte → Byte) (src : Source) (s : State) :
    (∃ t, addMemory f src s = .next t) ∨
      (addMemory f src s = .refused .decimalMode ∧ decimalRefused s = true) := by
  by_cases refused : decimalRefused s = true
  · exact .inr ⟨addMemory_refused refused, refused⟩
  · exact .inl ⟨_, by rw [addMemory, if_neg refused, Acc.finish_eq]⟩

/-- Every instruction has a next state, but for R161's refusal of ADC and SBC. -/
theorem exec_next_or_refused (i : Instr) (s : State) :
    (∃ t, exec i s = .next t) ∨
      (exec i s = .refused .decimalMode ∧ decimalRefused s = true ∧
        (mnemonicOf i = .adc ∨ mnemonicOf i = .sbc)) := by
  cases i
  case adcImm | adcZp | adcZpx | adcAbs | adcAbsx | adcAbsy | adcIndx | adcIndy =>
    exact (addMemory_next_or_refused _ _ s).imp id fun refused => ⟨refused.1, refused.2, .inl rfl⟩
  case sbcImm | sbcZp | sbcZpx | sbcAbs | sbcAbsx | sbcAbsy | sbcIndx | sbcIndy =>
    exact (addMemory_next_or_refused _ _ s).imp id fun refused => ⟨refused.1, refused.2, .inr rfl⟩
  case ldaImm | ldxImm | ldyImm | andImm | oraImm | eorImm | cmpImm | cpxImm | cpyImm | aslAcc
      | lsrAcc | rolAcc | rorAcc | bcc | bcs | beq | bne | bmi | bpl | bvc | bvs | jmpAbs | tax | tay
      | txa | tya | tsx | txs | inx | iny | dex | dey | clc | sec | cli | sei | clv | cld | sed
      | nop =>
    exact .inl ⟨_, rfl⟩
  -- what is left makes accesses, and ends in the state they reach
  all_goals exact .inl ⟨_, Acc.finish_eq _⟩

theorem decimalRefused_iff (s : State) :
    decimalRefused s = true ↔ s.p.d = true ∧ s.params.decimal = .refuse := by
  rw [decimalRefused, Bool.and_eq_true, decide_eq_true_iff]

theorem decimalRefused_eq_false {s : State} (h : s.p.d = false ∨ s.params.decimal = .binary) :
    decimalRefused s = false := by
  rw [decimalRefused]
  obtain e | e := h <;> rw [e]
  · rfl
  · exact Bool.and_false _

/-- The opcode bytes at which R161 may refuse are those of ADC and SBC (R162, R163). -/
theorem mnemonic_of_isDecimalOpcode {op : Byte} {sh : Shape} {operands : List Byte} {i : Instr}
    (decimal : isDecimalOpcode op = true) (row : opcodeShape op = some sh)
    (makes : sh.Makes operands i) :
    mnemonicOf i = .adc ∨ mnemonicOf i = .sbc := by
  obtain ⟨f, src, meaning⟩ := exec_eq_addMemory_of_isDecimalOpcode decimal row makes
  have refusing :
      exec i { State.reset with p := Status.reset.setD true, params := ⟨true, false, .refuse⟩ } =
        .refused .decimalMode := by
    rw [meaning]
    exact addMemory_refused rfl
  rcases exec_next_or_refused i _ with ⟨t, next⟩ | ⟨-, -, mnemonic⟩
  · rw [next] at refusing; cases refusing
  · exact mnemonic

/-! ### A fetch that fails -/

/-- An operand fetch at an unattached address ends the step there, the fetches before it standing
(R114, R133). -/
theorem fetchOperands_of_partial {sh : Shape} {bs tail : List Byte} {i : Instr} {s t : State}
    (makes : sh.Makes (bs ++ tail) i) (more : tail ≠ []) (fetches : Fetches bs s t)
    (unattached : ¬ t.Attached t.pc) : fetchOperands sh s = .stopped (busFaulted t t.pc .read) := by
  cases bs with
  | nil =>
    cases fetches
    generalize operandsAre : [] ++ tail = operands at makes
    cases makes with
    | plain => exact absurd operandsAre more
    | byte mk nn => rw [fetchOperands, fetchByte_unattached unattached]; rfl
    | word mk ll hh => rw [fetchOperands, fetchWord, fetchByte_unattached unattached]; rfl
  | cons b bs =>
    generalize operandsAre : b :: bs ++ tail = operands at makes
    cases makes with
    | plain => cases operandsAre
    | byte mk nn =>
      cases (List.append_eq_nil_iff.1 (List.cons.inj operandsAre).2).2
      exact absurd rfl more
    | word mk ll hh =>
      cases bs with
      | nil =>
        obtain ⟨attached, -, rfl⟩ := fetches
        rw [fetchOperands, fetchWord, fetchByte_attached attached, Acc.bind_ok,
          fetchByte_unattached unattached]
        rfl
      | cons b' bs =>
        cases (List.append_eq_nil_iff.1 (List.cons.inj (List.cons.inj operandsAre).2).2).2
        exact absurd rfl more

end Sys2Proof.Machine

namespace Sys2Proof.Claims
open Sys2Proof.Machine

/-- BRK alone is encoded with the opcode byte 0x00 (R229). -/
theorem byteAt_of_fetchInstr_brk {s u : State} (h : fetchInstr s = .instr .brk u) :
    s.byteAt s.pc = 0x00#8 := by
  obtain ⟨operands, encoding⟩ := encode_of_fetchInstr h
  exact (List.cons.inj encoding).1.symm

/-- Settles O53: an instruction by `exec_run`; a step by the three ways it can have a next state. -/
theorem runStateFrame : Obligations.RunStateFrame := by
  unfold Obligations.RunStateFrame
  refine ⟨fun i s t => exec_run, fun s t stepped => ?_⟩
  obtain ⟨running, fetchFault | ⟨u, -, noRow, rfl⟩ | ⟨i, u, fetchedInstr, fetched, runs, executed⟩⟩ :=
    step_next stepped
  · refine ⟨running, ?_⟩
    rw [← running]
    exact fetchFault.touches.run.imp id fun faulted => .inr (.inl faulted)
  · exact ⟨running, .inr (.inr (.inr ⟨(opcodeShape_eq_none_iff _).1 noRow, rfl⟩))⟩
  · refine ⟨running, ?_⟩
    obtain same | ⟨rfl, halted⟩ | ⟨a, d, unattached, faulted⟩ := exec_run executed
    · exact .inl (same.trans runs)
    · exact .inr (.inl ⟨byteAt_of_fetchInstr_brk fetchedInstr, halted⟩)
    · have before : ¬ s.Attached a := fun h => unattached ((fetched.touches.attached a).2 h)
      exact .inr (.inr (.inl ⟨a, d, before, faulted⟩))

/-- Settles O56: of the four ways a step can leave the run state, by O53, only BRK's is Halted. -/
theorem onlyBrkHalts : Obligations.OnlyBrkHalts := by
  unfold Obligations.OnlyBrkHalts
  intro s t _ stepped halted
  obtain ⟨-, running | ⟨opcode, -⟩ | ⟨a, d, -, faulted⟩ | ⟨-, faulted⟩⟩ := runStateFrame.2 s t stepped
  · rw [halted] at running; cases running
  · exact opcode
  · rw [halted] at faulted; cases faulted
  · rw [halted] at faulted; cases faulted

/-- Settles O55: a fetch that stops the step gives its next state; R161's refusal comes at dispatch
or from the instruction, and either way the byte at PC begins an ADC or SBC. -/
theorem runningStepsUnlessDecimalRefused : Obligations.RunningStepsUnlessDecimalRefused := by
  unfold Obligations.RunningStepsUnlessDecimalRefused
  intro s running
  rcases fetchInstr_cases s with
    ⟨t, stopped⟩ | ⟨sh, row, ⟨i, u, operands, fetched, makes, only⟩ | ⟨refused, decimal, policy⟩⟩
  · exact .inl ⟨t, step_of_stopped running stopped⟩
  · rw [step_of_instr running fetched]
    refine (exec_next_or_refused i u).imp id fun ⟨refused, policy, mnemonic⟩ => ?_
    obtain ⟨d, refuse⟩ := (decimalRefused_iff s).1 (only.decimalRefused_eq ▸ policy)
    have decoded := decode_of_makes row makes []
    exact ⟨refused, d, refuse, _, mnemonic, i, _, decoded, rfl⟩
  · obtain ⟨d, refuse⟩ := (decimalRefused_iff s).1 policy
    obtain ⟨operands, i, makes⟩ := sh.exists_makes
    exact .inr ⟨step_of_refused running refused, d, refuse, _,
      mnemonic_of_isDecimalOpcode decimal row makes, i, _, decode_of_makes row makes [], rfl⟩

/-- Settles O13: the opcode fetch that fails; then the operand bytes still to come when the fetches
reach an unattached address. -/
theorem fetchFaults : Obligations.FetchFaults := by
  unfold Obligations.FetchFaults
  refine ⟨fun s running unattached => step_of_stopped running ?_,
    fun s t bs i op rest tail running decoded operandsAre more fetches unattached policy => ?_⟩
  · rw [fetchInstr, fetchByte_unattached unattached]
    rfl
  · obtain ⟨op', operands, sh, e, row, makes⟩ := decode_ok decoded
    obtain ⟨rfl, rfl⟩ := List.cons.inj e
    obtain ⟨attached, rfl, operandFetches⟩ := fetches
    rw [List.append_nil] at operandsAre
    subst operandsAre
    have notRefused := (fetchByte_attached_only attached).decimalRefused_eq.trans
      (decimalRefused_eq_false policy)
    refine step_of_stopped running ?_
    rw [fetchInstr_attached attached, dispatchOpcode_some row, notRefused, Bool.and_false,
      if_neg Bool.false_ne_true]
    exact fetchOperands_of_partial makes more operandFetches unattached

end Sys2Proof.Claims
end

section
/-!
PROOF. The bus (20_memory.md R52–R66): what `attach` and `mirror` record, what resolution does with
it, what an access reaches, and the default map.
-/
namespace Sys2Proof

/-! ### The checks on ranges (R55–R57) -/

theorem Range.wf_iff (r : Range) : r.wf = true ↔ r.lo ≤ r.hi ∧ r.hi ≤ 0x10000 := by
  rw [Range.wf, Bool.and_eq_true, decide_eq_true_iff, decide_eq_true_iff]

theorem Range.hi_eq_of_size {m : Range} {n : Nat} (wf : m.wf = true) (size : m.size = n) :
    m.hi = m.lo + n := by
  have := (Range.wf_iff m).1 wf
  rw [Range.size] at size
  omega

theorem Mirror.clearOf_iff (m n : Mirror) :
    m.clearOf n = true ↔ m.len * m.count = 0 ∨ m.canon + m.len ≤ n.lo ∨ n.hi ≤ m.canon := by
  simp only [Mirror.clearOf, Bool.or_eq_true, decide_eq_true_eq, or_assoc]

end Sys2Proof

namespace Sys2Proof.Machine

/-! ### Attachments -/

/-- `attach` puts the new call before the others, or refuses a range beyond the space (R55, log 11).
-/
theorem attachOne_of_wf {t : Attachment} (h : t.range.wf = true) (table : List Attachment) :
    attachOne t table = .ok (t :: table) := by
  rw [attachOne, if_pos h]

theorem attachOne_of_not_wf {t : Attachment} (h : t.range.wf = false) (table : List Attachment) :
    attachOne t table = .error .attachRange := by
  rw [attachOne, h, if_neg Bool.false_ne_true]

/-! ### What `mirror` records -/

/-- Recording one mirror range redirects its addresses pairwise and leaves the others, whether it
makes a run longer or is a run of its own (R56, log 10). -/
theorem resolve_recordMirror {canon m : Range} (wf : m.wf = true) (size : m.size = canon.size)
    (table : List Mirror) (a : Word) :
    resolve (recordMirror canon m table) a =
      if m.lo ≤ a.toNat ∧ a.toNat < m.hi then BitVec.ofNat 16 (canon.lo + (a.toNat - m.lo))
      else resolve table a := by
  have hi := Range.hi_eq_of_size wf size
  have alone : resolve ({ lo := m.lo, canon := canon.lo, len := canon.size, count := 1 } :: table) a =
      if m.lo ≤ a.toNat ∧ a.toNat < m.hi then BitVec.ofNat 16 (canon.lo + (a.toNat - m.lo))
      else resolve table a := by
    rw [resolve_entry, Nat.mul_one, ← hi]
    split
    next inside => rw [Nat.mod_eq_of_lt (by omega)]
    next => rfl
  cases table with
  | nil => exact alone
  | cons e rest =>
    obtain ⟨lo, canonLo, len, count⟩ := e
    rw [recordMirror]
    split
    next goesOn =>
      -- the range starts where the run ends, a whole number of ranges above the run's start
      obtain ⟨rfl, rfl, ends⟩ := goesOn
      replace ends : lo + canon.size * count = m.lo := ends
      change resolve (⟨lo, canon.lo, canon.size, count + 1⟩ :: rest) a =
        if _ then _ else resolve (⟨lo, canon.lo, canon.size, count⟩ :: rest) a
      rw [resolve_entry, resolve_entry, Nat.mul_add_one]
      by_cases inside : m.lo ≤ a.toNat ∧ a.toNat < m.hi
      · have place : (a.toNat - lo) % canon.size = a.toNat - m.lo := by
          rw [show a.toNat - lo = (a.toNat - m.lo) + canon.size * count by omega,
            Nat.add_mul_mod_self_left, Nat.mod_eq_of_lt (by omega)]
        rw [if_pos inside, if_pos (by omega), place]
      · rw [if_neg inside]
        by_cases before : lo ≤ a.toNat ∧ a.toNat < lo + canon.size * count
        · rw [if_pos before, if_pos (by omega)]
        · rw [if_neg before, if_neg (by omega)]
    next => exact alone

/-- The ranges of one call, in order (R56). -/
theorem resolve_recordMirrors {canon : Range} {ms : List Range}
    (h : ∀ m ∈ ms, m.wf = true ∧ m.size = canon.size) (table : List Mirror) (a : Word) :
    resolve (recordMirrors canon ms table) a = Claims.pairwise canon.lo a (resolve table a) ms := by
  induction ms generalizing table with
  | nil => rfl
  | cons m rest ih =>
    obtain ⟨⟨wf, size⟩, later⟩ := List.forall_mem_cons.1 h
    rw [recordMirrors, ih later, resolve_recordMirror wf size, Claims.pairwise]

/-- What an accepted `mirror` call checked, and the table it leaves (R56, R57). -/
theorem mirrorRanges_inv {canon : Range} {ms : List Range} {table table' : List Mirror}
    (h : mirrorRanges canon ms table = .ok table') :
    (∀ m ∈ ms, m.wf = true ∧ m.size = canon.size) ∧ table' = recordMirrors canon ms table ∧
      Mirror.tableWf table' = true := by
  unfold mirrorRanges at h
  split at h
  next => cases h
  next ranges =>
    split at h
    next => cases h
    next lengths =>
      split at h
      next => cases h
      next chains =>
        cases h
        simp only [Bool.or_eq_true, Bool.not_eq_true', not_or, Bool.not_eq_false, List.all_eq_true,
          Range.mirrorLengthsWf, decide_eq_true_eq] at ranges lengths chains
        exact ⟨fun m hm => ⟨ranges.2 m hm, lengths m hm⟩, rfl, chains⟩

/-- On unequal lengths `mirror` is refused (R56). -/
theorem mirrorRanges_lengths {canon : Range} {ms : List Range} (canonWf : canon.wf = true)
    (rangesWf : ∀ m ∈ ms, m.wf = true) {m : Range} (mem : m ∈ ms) (size : m.size ≠ canon.size)
    (table : List Mirror) : mirrorRanges canon ms table = .error .mirrorLength := by
  have rangesWf : ms.all Range.wf = true := List.all_eq_true.2 rangesWf
  have lengths : canon.mirrorLengthsWf ms = false :=
    List.all_eq_false.2 ⟨m, mem, by simpa using size⟩
  simp [mirrorRanges, canonWf, rangesWf, lengths]

/-! ### Resolution -/

theorem resolve_of_not_covered {table : List Mirror} {a : Word}
    (h : ∀ m ∈ table, ¬ (m.lo ≤ a.toNat ∧ a.toNat < m.hi)) : resolve table a = a := by
  induction table with
  | nil => rfl
  | cons m rest ih =>
    obtain ⟨notHere, notLater⟩ := List.forall_mem_cons.1 h
    rw [resolve_cons, if_neg notHere, ih notLater]

/-- An address resolves to itself, or to a place in the canonical range of a run that is not empty.
-/
theorem resolve_cases (table : List Mirror) (a : Word) :
    resolve table a = a ∨ ∃ m ∈ table, m.len * m.count ≠ 0 ∧
      ∃ k < m.len, resolve table a = BitVec.ofNat 16 (m.canon + k) := by
  induction table with
  | nil => exact .inl rfl
  | cons m rest ih =>
    rw [resolve_cons]
    split
    next inside =>
      rw [Mirror.hi] at inside
      have notEmpty : m.len * m.count ≠ 0 := by omega
      have len : 0 < m.len := Nat.pos_of_ne_zero (Nat.mul_ne_zero_iff.1 notEmpty).1
      exact .inr ⟨m, List.mem_cons_self, notEmpty, _, Nat.mod_lt _ len, rfl⟩
    next =>
      exact ih.imp id fun ⟨n, mem, rest⟩ => ⟨n, List.mem_cons_of_mem _ mem, rest⟩

/-- A canonical address of a legal table is no mirror address (R57). -/
theorem resolve_canonical {table : List Mirror} (inSpace : ∀ m ∈ table, m.inSpace = true)
    (wf : Mirror.tableWf table = true) {m : Mirror} (mem : m ∈ table) (notEmpty : m.len * m.count ≠ 0)
    {k : Nat} (place : k < m.len) :
    resolve table (BitVec.ofNat 16 (m.canon + k)) = BitVec.ofNat 16 (m.canon + k) := by
  have space := inSpace m mem
  rw [Mirror.inSpace, Bool.and_eq_true, decide_eq_true_iff, decide_eq_true_iff] at space
  simp only [Mirror.tableWf, List.all_eq_true, Mirror.clearOf_iff] at wf
  refine resolve_of_not_covered fun n other => ?_
  rw [toNat_ofNat16 (by omega)]
  obtain empty | below | above := wf m mem n other
  · exact absurd empty notEmpty
  · omega
  · omega

/-! ### Accesses to storage -/

theorem memWrite_storage {s : State} {a : Word} (h : s.target a = some .ram ∨ s.target a = some .io)
    (v : Byte) : memWrite a v s = .ok () (s.setMem (s.mem.write (s.canon a).toNat v)) := by
  obtain e | e := h <;> rw [memWrite, e] <;> rfl

theorem memRead_storage {s : State} {a : Word} (h : s.target a = some .ram ∨ s.target a = some .io) :
    memRead a s = .ok (s.cell a) s := by
  obtain e | e := h <;> rw [memRead, e] <;> rfl

theorem memRead_external {s : State} {a : Word} {id : Nat} (h : s.target a = some (.external id)) :
    memRead a s = .ok (Config.externalRead id (s.canon a) s.ext)
      (Claims.forwarded s id (s.canon a) .read (Config.externalRead id (s.canon a) s.ext)) := by
  rw [memRead, h]
  rfl

theorem memWrite_external {s : State} {a : Word} {id : Nat} (h : s.target a = some (.external id))
    (v : Byte) : memWrite a v s = .ok () (Claims.forwarded s id (s.canon a) .write v) := by
  rw [memWrite, h]
  rfl

/-- The byte behind `b` after a byte is stored at the canonical address of `a` (R52, R53). -/
theorem cell_setMem_write (s : State) (a b : Word) (v : Byte) :
    (s.setMem (s.mem.write (s.canon a).toNat v)).cell b =
      if s.canon b = s.canon a then v else s.cell b := by
  show (s.mem.write (s.canon a).toNat v).read (s.canon b).toNat = _
  rw [Memory.read_write]
  exact if_congr (BitVec.toNat_inj.trans eq_comm) rfl rfl

end Sys2Proof.Machine

namespace Sys2Proof.Claims
open Sys2Proof.Machine

/-! ### The default map -/

theorem DefaultMap.mirrors_eq {s : State} (h : DefaultMap s) :
    (s.mirrors = [ioRun, ramRun] ∧ s.mirrors.length = 2) ∨
      (s.mirrors = [ioRun, prgRun, ramRun] ∧ s.mirrors.length = 3) := by
  obtain ⟨-, e | ⟨io, ram, reset, e⟩⟩ := h
  · exact .inl ⟨e, by rw [e]; rfl⟩
  · cases reset
    exact .inr ⟨e, by rw [e]; rfl⟩

/-- Resolution on the default map, as arithmetic (R64–R66). -/
theorem DefaultMap.canon_toNat {s : State} (h : DefaultMap s) (a : Word) :
    (s.canon a).toNat =
      if 0x0800 ≤ a.toNat ∧ a.toNat < 0x2000 then a.toNat % 0x0800
      else if 0x2008 ≤ a.toNat ∧ a.toNat < 0x4000 then 0x2000 + a.toNat % 0x0008
      else if 0xC000 ≤ a.toNat ∧ s.mirrors.length = 3 then a.toNat - 0x4000
      else a.toNat := by
  have := a.isLt
  rcases h.mirrors_eq with ⟨e, length⟩ | ⟨e, length⟩ <;> rw [length, State.canon, e]
  · rw [ioRun, ramRun, resolve_entry, resolve_entry, resolve_nil]
    simp only [apply_ite BitVec.toNat, BitVec.toNat_ofNat]
    split_ifs <;> omega
  · rw [ioRun, prgRun, ramRun, resolve_entry, resolve_entry, resolve_entry, resolve_nil]
    simp only [apply_ite BitVec.toNat, BitVec.toNat_ofNat, and_true]
    split_ifs <;> omega

/-- On the default map an access reaches a target unless it is to 0x4000–0x7FFF (R63). -/
theorem DefaultMap.target_eq {s : State} (h : DefaultMap s) (a : Word) :
    s.target a =
      if 0x4000 ≤ a.toNat ∧ a.toNat < 0x8000 then none
      else if 0x2000 ≤ a.toNat ∧ a.toNat < 0x4000 then some .io
      else some .ram := by
  have := a.isLt
  have canon := h.canon_toNat a
  obtain ⟨attach, -⟩ := h
  rw [State.target, attach, owner_defaultMap]
  by_cases hole : 0x4000 ≤ a.toNat ∧ a.toNat < 0x8000
  · have self : (s.canon a).toNat = a.toNat := by split_ifs at canon <;> omega
    rw [if_pos hole, if_neg (by omega), if_neg (by omega), if_neg (by omega)]
  by_cases io : 0x2000 ≤ a.toNat ∧ a.toNat < 0x4000
  · have block : 0x2000 ≤ (s.canon a).toNat ∧ (s.canon a).toNat < 0x2008 := by
      split_ifs at canon <;> omega
    rw [if_neg hole, if_pos io, if_neg (by omega), if_pos block]
  have ram : 0x8000 ≤ (s.canon a).toNat ∨ (s.canon a).toNat < 0x0800 := by
    split_ifs at canon <;> omega
  rw [if_neg hole, if_neg io]
  obtain prg | internal := ram
  · rw [if_pos prg]
  · rw [if_neg (by omega), if_neg (by omega), if_pos internal]

theorem toNat_and_07FF (a : Word) : (a &&& 0x07FF#16).toNat = a.toNat % 0x0800 := by
  rw [BitVec.toNat_and]
  exact Nat.and_two_pow_sub_one_eq_mod a.toNat 11

theorem toNat_2000_or_and_0007 (a : Word) :
    (0x2000#16 ||| (a &&& 0x0007#16)).toNat = 0x2000 + a.toNat % 0x0008 := by
  have low : (a &&& 0x0007#16).toNat = a.toNat % 0x0008 := by
    rw [BitVec.toNat_and]
    exact Nat.and_two_pow_sub_one_eq_mod a.toNat 3
  rw [BitVec.toNat_or, low]
  exact (Nat.two_pow_add_eq_or_of_lt (i := 13) (by omega) 1).symm

/-- Settles O15: both addresses are storage, whose read and write rules give the cell written. -/
theorem readAfterWrite : Obligations.ReadAfterWrite := by
  unfold Obligations.ReadAfterWrite
  intro a b v s t storageA storageB wrote
  rw [memWrite_storage storageA] at wrote
  cases wrote
  rw [← cell_setMem_write]
  exact memRead_storage (s := s.setMem _) storageB

/-- Settles O16: the masks and offsets of R64–R66 are the arithmetic of `DefaultMap.canon_toNat`. -/
theorem defaultMirrors : Obligations.DefaultMirrors := by
  unfold Obligations.DefaultMirrors
  intro s a map
  apply BitVec.eq_of_toNat_eq
  rw [map.canon_toNat a]
  simp only [apply_ite BitVec.toNat, toNat_and_07FF, toNat_2000_or_and_0007]
  split_ifs with _ _ high
  · rfl
  · rfl
  · have noBorrow : 0x4000#16 ≤ a := by
      change 0x4000 ≤ a.toNat
      omega
    exact (BitVec.toNat_sub_of_le noBorrow).symm
  · rfl

/-- Settles O17: `resolve_recordMirror` for each range in turn. -/
theorem mirrorIsPairwise : Obligations.MirrorIsPairwise := by
  unfold Obligations.MirrorIsPairwise
  intro canon ms table table' accepted a
  obtain ⟨ranges, rfl, -⟩ := mirrorRanges_inv accepted
  exact resolve_recordMirrors ranges table a

/-- Settles O18: the length check comes once the ranges lie in the space; an accepted table has
passed the chain check. -/
theorem mirrorRefusals : Obligations.MirrorRefusals := by
  unfold Obligations.MirrorRefusals
  refine ⟨fun canon ms table canonWf rangesWf ⟨m, mem, size⟩ =>
    mirrorRanges_lengths canonWf rangesWf mem size table, fun canon ms table table' accepted => ?_⟩
  obtain ⟨-, -, chains⟩ := mirrorRanges_inv accepted
  exact chains

/-- Settles O19: a canonical address is the address itself or lies in a canonical range, where a
legal table has no mirror address. -/
theorem resolutionNeverChains : Obligations.ResolutionNeverChains := by
  unfold Obligations.ResolutionNeverChains
  rintro s a ⟨-, inSpace, wf⟩
  obtain self | ⟨m, mem, notEmpty, k, place, e⟩ := resolve_cases s.mirrors a
  · rw [State.canon, State.canon, self, self]
  · rw [State.canon, State.canon, e, resolve_canonical inSpace wf mem notEmpty place]

/-- Settles O20: an accepted call stands first in the table, where `owner` looks first. -/
theorem attachLastWins : Obligations.AttachLastWins := by
  unfold Obligations.AttachLastWins
  refine ⟨fun t table table' accepted c => ?_, fun t table low high => ?_, fun t table beyond => ?_⟩
  · cases wf : t.range.wf with
    | true =>
      rw [attachOne_of_wf wf] at accepted
      cases accepted
      rfl
    | false =>
      rw [attachOne_of_not_wf wf] at accepted
      cases accepted
  · exact attachOne_of_wf (t.range.wf_iff.2 ⟨low, high⟩) table
  · refine attachOne_of_not_wf (Bool.eq_false_iff.2 fun wf => ?_) table
    have := t.range.wf_iff.1 wf
    omega

/-- Settles O14: no owner, storage, or an external target. -/
theorem busAccessRules : Obligations.BusAccessRules := by
  unfold Obligations.BusAccessRules
  intro a s
  refine ⟨fun noOwner => ?_, fun storage => ?_, fun id external => ?_⟩
  · have noTarget : s.target a = none := noOwner
    have unattached : ¬ s.Attached a := by simp [State.Attached, noTarget]
    exact ⟨memRead_unattached unattached, fun v => memWrite_unattached v unattached⟩
  · exact ⟨memRead_storage storage, memWrite_storage storage⟩
  · exact ⟨memRead_external external, memWrite_external external⟩

end Sys2Proof.Claims
end

section
/-!
PROOF. Arithmetic on bytes (42_arithmetic_logic.md R163, 43_shift_rotate.md R181–R184): the adder on
a complement subtracts, and the shifts are doubling and halving with a bit in and a bit out.
-/
namespace Sys2Proof.Machine

/-! ### The complement of an operand (R163) -/

theorem toNat_complement (v : Byte) : (~~~v).toNat = 255 - v.toNat := by
  rw [BitVec.toNat_not]

theorem complement_eq (v : Byte) : ~~~v = BitVec.ofNat 8 (255 - v.toNat) := by
  apply BitVec.eq_of_toNat_eq
  rw [toNat_complement, BitVec.toNat_ofNat, Nat.mod_eq_of_lt (by omega)]

theorem toInt_complement (v : Byte) : (~~~v).toInt = -v.toInt - 1 := by
  have := v.isLt
  simp only [BitVec.toInt_eq_toNat_cond, toNat_complement]
  split_ifs <;> omega

/-! ### The shifts (R181–R184) -/

theorem getLsbD_seven_eq (v : Byte) : v.getLsbD 7 = decide (v.toNat ≥ 128) := by
  rw [← BitVec.msb_eq_getLsbD_last, BitVec.msb_eq_decide]

theorem getLsbD_zero_eq (v : Byte) : v.getLsbD 0 = decide (v.toNat % 2 = 1) :=
  Nat.testBit_zero v.toNat

theorem toNat_setWidth_ofBool (c : Bool) : ((BitVec.ofBool c).setWidth 8 : Byte).toNat = c.toNat := by
  cases c <;> rfl

theorem shiftLeft_eq (c : Bool) (v : Byte) :
    shiftLeft c v = (Claims.leftOf v c, decide (v.toNat ≥ 128)) := by
  have carry := c.toNat_le
  rw [shiftLeft, getLsbD_seven_eq, Claims.leftOf]
  congr 1
  apply BitVec.eq_of_toNat_eq
  rw [BitVec.toNat_or, toNat_setWidth_ofBool, BitVec.toNat_shiftLeft, BitVec.toNat_ofNat,
    Nat.shiftLeft_eq, Nat.mul_comm v.toNat,
    show 2 ^ 1 * v.toNat % 2 ^ 8 = 2 ^ 1 * (v.toNat % 128) by omega,
    ← Nat.two_pow_add_eq_or_of_lt (by omega)]
  omega

theorem shiftRight_eq (c : Bool) (v : Byte) :
    shiftRight c v = (Claims.rightOf v c, decide (v.toNat % 2 = 1)) := by
  have carry := c.toNat_le
  have := v.isLt
  rw [shiftRight, getLsbD_zero_eq, Claims.rightOf]
  congr 1
  apply BitVec.eq_of_toNat_eq
  rw [BitVec.toNat_or, BitVec.toNat_shiftLeft, toNat_setWidth_ofBool, BitVec.toNat_ofNat,
    BitVec.toNat_ushiftRight, Nat.shiftLeft_eq, Nat.mul_comm c.toNat, Nat.shiftRight_eq_div_pow,
    Nat.or_comm, Nat.mod_eq_of_lt (by omega), ← Nat.two_pow_add_eq_or_of_lt (by omega)]
  omega

/-- Nine bits go round once (R183). -/
theorem nine_shiftLefts (v : Byte) (c : Bool) :
    ((fun q : Byte × Bool => shiftLeft q.2 q.1)^[9]) (v, c) = (v, c) := by
  simp only [Function.iterate_succ, Function.iterate_zero, Function.comp_apply, id, shiftLeft]
  refine Prod.ext (BitVec.eq_of_getLsbD_eq fun k hk => ?_) ?_
  · interval_cases k <;> simp
  · simp

/-- A rotate right brings back the bit a rotate left has shifted out (R183, R184). -/
theorem shiftRight_shiftLeft (v : Byte) (c : Bool) :
    shiftRight (shiftLeft c v).2 (shiftLeft c v).1 = (v, c) := by
  simp only [shiftLeft, shiftRight]
  refine Prod.ext (BitVec.eq_of_getLsbD_eq fun k hk => ?_) ?_
  · interval_cases k <;> simp
  · simp

end Sys2Proof.Machine

namespace Sys2Proof.Claims
open Sys2Proof.Machine

/-- Settles O28: the complement is 255 - v, and -v - 1 as a signed byte. -/
theorem sbcIsSubtraction : Obligations.SbcIsSubtraction := by
  unfold Obligations.SbcIsSubtraction
  intro a v c
  have := v.isLt
  have carry := c.toNat_le
  refine ⟨?_, ?_, ?_⟩
  · apply BitVec.eq_of_toNat_eq
    rw [addWithCarry_sum, toNat_complement, BitVec.toNat_ofInt, BitVec.toNat_ofNat]
    omega
  · rw [addWithCarry_carry_iff, toNat_complement]
    omega
  · rw [addWithCarry_overflow_iff_range, toInt_complement]
    omega

/-- Settles O32: the two facts on `shiftLeft` and `shiftRight`. -/
theorem nineRotatesRestore : Obligations.NineRotatesRestore := by
  unfold Obligations.NineRotatesRestore
  exact fun v c => ⟨nine_shiftLefts v c, shiftRight_shiftLeft v c⟩

end Sys2Proof.Claims
end

section
/-!
PROOF. The access classes of R132: what reads, writes and modifies through an operand leaves among
the registers, then loads, stores, ADC and SBC, AND, ORA and EOR, shifts and rotates, BIT, INC and
DEC (41_load_store.md, 42_arithmetic_logic.md, 43_shift_rotate.md, 44_compare_bit.md,
47_transfer_incdec_flags.md).
-/
namespace Sys2Proof.Machine

/-! ### Registers after an access -/

theorem State.afterRead_regs (s : State) (a : Word) : SameRegs s (s.afterRead a) :=
  ⟨s.afterRead_a a, s.afterRead_x a, s.afterRead_y a, s.afterRead_pc a, s.afterRead_p a⟩

theorem State.afterWrite_regs (s : State) (a : Word) (v : Byte) : SameRegs s (s.afterWrite a v) := by
  obtain ⟨m, h, e⟩ := s.afterWrite_eq a v
  rw [e]
  exact ⟨rfl, rfl, rfl, rfl, rfl⟩

theorem Mode.after_regs (m : Mode) (s : State) : SameRegs s (m.after s) := by
  rcases m.after_cases s with e | ⟨p, q, e⟩ <;> rw [e]
  · exact SameRegs.refl s
  · exact (s.afterRead_regs p).trans ((s.afterRead p).afterRead_regs q)

theorem Source.after_regs (src : Source) (s : State) : SameRegs s (src.after s) := by
  cases src with
  | imm nn => exact SameRegs.refl s
  | mem m => exact (m.after_regs s).trans ((m.after s).afterRead_regs _)

end Sys2Proof.Machine

namespace Sys2Proof.Claims
open Sys2Proof.Machine

/-! ### The read class -/

/-- An instruction of the read class whose effect `g` uses registers of the state the read leaves:
those are the registers before it (R132). -/
theorem readForm_of_effect {op : Byte} {i : Instr} {src : Source} {eff : State → Byte → State → State}
    {g : Byte → State → State} (encoding : encode i = op :: src.bytes)
    (meaning : ∀ s, exec i s = Acc.finish ((readOperand src s).bind fun v t => .ok () (g v t)))
    (effect : ∀ s v t, SameRegs s t → g v t = eff s v t) : ReadForm op i src eff := by
  obtain ⟨-, reachable, unreachable⟩ :=
    readForm_of_readOperand (eff := fun _ v t => g v t) encoding meaning
  refine ⟨encoding, fun s h => ?_, unreachable⟩
  exact (reachable s h).trans (congrArg _ (effect s _ _ (src.after_regs s)))

theorem putReg_x (t : State) (v : Byte) : t.putReg .x v = { t with x := v, p := zn t.p v } :=
  putReg_eq_zn t .x v

theorem putReg_y (t : State) (v : Byte) : t.putReg .y v = { t with y := v, p := zn t.p v } :=
  putReg_eq_zn t .y v

theorem readForm_of_load_a {op : Byte} {i : Instr} {src : Source}
    (encoding : encode i = op :: src.bytes) (meaning : ∀ s, exec i s = load .a src s) :
    ReadForm op i src loadedA :=
  readForm_of_effect encoding meaning fun _ v t _ => putReg_a t v

theorem readForm_of_load_x {op : Byte} {i : Instr} {src : Source}
    (encoding : encode i = op :: src.bytes) (meaning : ∀ s, exec i s = load .x src s) :
    ReadForm op i src loadedX :=
  readForm_of_effect encoding meaning fun _ v t _ => putReg_x t v

theorem readForm_of_load_y {op : Byte} {i : Instr} {src : Source}
    (encoding : encode i = op :: src.bytes) (meaning : ∀ s, exec i s = load .y src s) :
    ReadForm op i src loadedY :=
  readForm_of_effect encoding meaning fun _ v t _ => putReg_y t v

/-- AND, ORA and EOR combine with the A from before the read, which leaves A (R164–R166). -/
theorem readForm_of_logic {op : Byte} {i : Instr} {src : Source} (f : Byte → Byte → Byte)
    (encoding : encode i = op :: src.bytes) (meaning : ∀ s, exec i s = logic f src s) :
    ReadForm op i src (fun s v t => loadedA s (f s.a v) t) :=
  readForm_of_effect encoding meaning fun s v t same => by
    rw [putReg_a, same.a]
    rfl

/-- BIT's flags, as the statement writes them (R194). -/
theorem readForm_of_bitTest {op : Byte} {i : Instr} {src : Source}
    (encoding : encode i = op :: src.bytes) (meaning : ∀ s, exec i s = bitTest src s) :
    ReadForm op i src bitTested :=
  readForm_of_effect encoding meaning fun s v t same => by
    have zero : (s.a &&& v = 0#8) = ((s.a &&& v).toNat = 0) := propext BitVec.toNat_inj.symm
    rw [Status.bitTest, same.a, bitTested]
    simp only [zero]
    rfl

/-! ### ADC and SBC (R160–R163) -/

/-- The adder's effect on A and P, A and C being those before the read (R160, R162). -/
theorem addToA_eq_added {s t : State} (same : SameRegs s t) (v : Byte) :
    addToA v t = added s v t := by
  have sum : (addWithCarry s.a v s.p.c).1 = sumOf s v := addWithCarry_sum s.a v s.p.c
  have carry : (addWithCarry s.a v s.p.c).2.1 = decide (s.a.toNat + v.toNat + s.p.c.toNat > 255) :=
    Bool.eq_iff_iff.2 ((addWithCarry_carry_iff s.a v s.p.c).trans decide_eq_true_iff.symm)
  have overflow : (addWithCarry s.a v s.p.c).2.2 =
      decide (s.a.msb = v.msb ∧ s.a.msb ≠ (sumOf s v).msb) := by
    rw [← sum]
    exact Bool.eq_iff_iff.2
      ((addWithCarry_overflow_iff_signs s.a v s.p.c).trans decide_eq_true_iff.symm)
  rw [addToA, same.a, same.p, Status.afterAdd, sum, carry, overflow, setZN_eq_zn]
  rfl

/-- ADC and SBC, which add the operand as `f` gives it, but for R161's refusal. -/
theorem addForm_of_addMemory {op : Byte} {i : Instr} {src : Source} (f : Byte → Byte)
    (encoding : encode i = op :: src.bytes) (meaning : ∀ s, exec i s = addMemory f src s) :
    AddForm op i src fun s v t => added s (f v) t := by
  have runs {s : State} (policy : s.p.d = false ∨ s.params.decimal = .binary) : exec i s =
      Acc.finish ((readOperand src s).bind fun v t => .ok () (addToA (f v) t)) := by
    rw [meaning, addMemory, decimalRefused_eq_false policy, if_neg Bool.false_ne_true]
  refine ⟨encoding, fun s d refuse => ?_, fun s policy reachable => ?_,
    fun s policy unreachable => ?_⟩
  · rw [meaning, addMemory_refused ((decimalRefused_iff s).2 ⟨d, refuse⟩)]
  · rw [runs policy, readOperand_reachable reachable, Acc.bind_ok, Acc.finish_ok,
      addToA_eq_added (src.after_regs s)]
  · rw [runs policy, readOperand_unreachable unreachable, Acc.bind_stop, Acc.finish_stop]

theorem addForm_of_adc {op : Byte} {i : Instr} {src : Source} (encoding : encode i = op :: src.bytes)
    (meaning : ∀ s, exec i s = addMemory (fun v => v) src s) : AddForm op i src added :=
  addForm_of_addMemory (fun v => v) encoding meaning

/-- SBC adds 255 - v, the complement (R163). -/
theorem addForm_of_sbc {op : Byte} {i : Instr} {src : Source} (encoding : encode i = op :: src.bytes)
    (meaning : ∀ s, exec i s = addMemory (fun v => ~~~v) src s) :
    AddForm op i src fun s v t => added s (BitVec.ofNat 8 (255 - v.toNat)) t := by
  simp only [← complement_eq]
  exact addForm_of_addMemory (fun v => ~~~v) encoding meaning

/-! ### The write class -/

/-- An instruction of the write class: the pointer reads, then the write, each of which may raise
(R132, R133). -/
theorem storeForm_of_store {op : Byte} {i : Instr} {m : Mode} (v : State → Byte)
    (encoding : encode i = op :: m.bytes) (meaning : ∀ s, exec i s = store (v s) m s) :
    StoreForm op i m v := by
  refine ⟨encoding, fun s ⟨pointer, cell⟩ => ?_, fun s pointer noCell => ?_, fun s noPointer => ?_⟩
  · rw [meaning, store, effectiveAddress_attached pointer, Acc.bind_ok,
      memWrite_attached _ ((m.after_attached s _).2 cell), Acc.finish_ok]
  · rw [meaning, store, effectiveAddress_attached pointer, Acc.bind_ok,
      memWrite_unattached _ fun cell => noCell ((m.after_attached s _).1 cell), Acc.finish_stop,
      takeFault_busFault]
  · rw [meaning, store, effectiveAddress_unattached noPointer, Acc.bind_stop, Acc.finish_stop]

/-! ### The read-modify-write class -/

/-- An instruction of the read-modify-write class that sets P by `g` from the byte read: the P it
rewrites is the one before the access (R132). -/
theorem modifyForm_of_modifyCell {op : Byte} {i : Instr} {m : Mode} {f : State → Byte → Byte}
    {p : State → Byte → Status} (g : State → Byte → Status → Status)
    (encoding : encode i = op :: m.bytes)
    (meaning : ∀ s, exec i s =
      Acc.finish ((modifyCell (f s) m s).bind fun v t => .ok () (t.setP (g s v t.p))))
    (status : ∀ s v, g s v s.p = p s v) : ModifyForm op i m f p := by
  refine ⟨encoding, fun s reachable => ?_, fun s unreachable => ?_⟩
  · have same := ((m.after_regs s).trans (State.afterRead_regs _ (m.addr s))).trans
      (State.afterWrite_regs _ (m.addr s) (f s ((m.after s).byteAt (m.addr s))))
    rw [meaning, modifyCell_reachable _ reachable, Acc.bind_ok, Acc.finish_ok, same.p, status]
    rfl
  · rw [meaning, modifyCell_unreachable _ unreachable, Acc.bind_stop, Acc.finish_stop]

theorem afterShift_eq_shifted (p : Status) (r : Byte) (c : Bool) :
    p.afterShift (r, c) = shifted p r c := by
  rw [Status.afterShift, setZN_eq_zn]
  rfl

/-- ASL and ROL on memory, `c` coming in (R181, R183). -/
theorem modifyForm_of_shiftLeft {op : Byte} {i : Instr} {m : Mode} (c : State → Bool)
    (encoding : encode i = op :: m.bytes)
    (meaning : ∀ s, exec i s = shiftMemory (shiftLeft (c s)) m s) :
    ModifyForm op i m (fun s v => leftOf v (c s))
      (fun s v => shifted s.p (leftOf v (c s)) (decide (v.toNat ≥ 128))) := by
  refine modifyForm_of_modifyCell (fun s v p => p.afterShift (shiftLeft (c s) v)) encoding
    (fun s => ?_) fun s v => ?_
  · simp only [meaning, shiftMemory, State.setShiftFlags, shiftLeft_eq]
  · rw [shiftLeft_eq, afterShift_eq_shifted]

/-- LSR and ROR on memory, `c` coming in (R182, R184). -/
theorem modifyForm_of_shiftRight {op : Byte} {i : Instr} {m : Mode} (c : State → Bool)
    (encoding : encode i = op :: m.bytes)
    (meaning : ∀ s, exec i s = shiftMemory (shiftRight (c s)) m s) :
    ModifyForm op i m (fun s v => rightOf v (c s))
      (fun s v => shifted s.p (rightOf v (c s)) (decide (v.toNat % 2 = 1))) := by
  refine modifyForm_of_modifyCell (fun s v p => p.afterShift (shiftRight (c s) v)) encoding
    (fun s => ?_) fun s v => ?_
  · simp only [meaning, shiftMemory, State.setShiftFlags, shiftRight_eq]
  · rw [shiftRight_eq, afterShift_eq_shifted]

/-- INC and DEC (R250, R251). -/
theorem modifyForm_of_stepMemory {op : Byte} {i : Instr} {m : Mode} (f : Byte → Byte)
    (encoding : encode i = op :: m.bytes) (meaning : ∀ s, exec i s = stepMemory f m s) :
    ModifyForm op i m (fun _ v => f v) (fun s v => zn s.p (f v)) :=
  modifyForm_of_modifyCell (fun _ v p => p.setZN (f v)) encoding meaning
    fun s v => setZN_eq_zn s.p (f v)

theorem modifyForm_of_inc {op : Byte} {i : Instr} {m : Mode} (encoding : encode i = op :: m.bytes)
    (meaning : ∀ s, exec i s = stepMemory (fun v => v + 1#8) m s) :
    ModifyForm op i m (fun _ v => BitVec.ofNat 8 (v.toNat + 1))
      (fun s v => zn s.p (BitVec.ofNat 8 (v.toNat + 1))) := by
  simp only [← byte_add_one_eq]
  exact modifyForm_of_stepMemory _ encoding meaning

theorem modifyForm_of_dec {op : Byte} {i : Instr} {m : Mode} (encoding : encode i = op :: m.bytes)
    (meaning : ∀ s, exec i s = stepMemory (fun v => v - 1#8) m s) :
    ModifyForm op i m (fun _ v => BitVec.ofNat 8 (v.toNat + 255))
      (fun s v => zn s.p (BitVec.ofNat 8 (v.toNat + 255))) := by
  simp only [← byte_sub_one_eq]
  exact modifyForm_of_stepMemory _ encoding meaning

/-- ASL A and ROL A, `c` coming in (R181, R183). -/
theorem plainForm_of_shiftLeft {op : Byte} {i : Instr} (c : State → Bool)
    (encoding : encode i = [op]) (meaning : ∀ s, exec i s = shiftAccumulator (shiftLeft (c s)) s) :
    PlainForm op i fun s =>
      { s with
        a := leftOf s.a (c s)
        p := shifted s.p (leftOf s.a (c s)) (decide (s.a.toNat ≥ 128)) } := by
  refine ⟨encoding, fun s => ?_⟩
  rw [meaning, shiftAccumulator, shiftLeft_eq, State.setShiftFlags, afterShift_eq_shifted]
  rfl

/-- LSR A and ROR A, `c` coming in (R182, R184). -/
theorem plainForm_of_shiftRight {op : Byte} {i : Instr} (c : State → Bool)
    (encoding : encode i = [op]) (meaning : ∀ s, exec i s = shiftAccumulator (shiftRight (c s)) s) :
    PlainForm op i fun s =>
      { s with
        a := rightOf s.a (c s)
        p := shifted s.p (rightOf s.a (c s)) (decide (s.a.toNat % 2 = 1)) } := by
  refine ⟨encoding, fun s => ?_⟩
  rw [meaning, shiftAccumulator, shiftRight_eq, State.setShiftFlags, afterShift_eq_shifted]
  rfl

/-! ### The default map's hole and mirrors (R63, R65) -/

theorem DefaultMap.unattached_iff {s : State} (h : DefaultMap s) (a : Word) :
    ¬ s.Attached a ↔ 0x4000 ≤ a.toNat ∧ a.toNat < 0x8000 := by
  rw [State.Attached, h.target_eq a]
  split_ifs <;> simp <;> omega

theorem DefaultMap.storage {s : State} (h : DefaultMap s) {a : Word}
    (outside : a.toNat < 0x4000 ∨ 0x8000 ≤ a.toNat) :
    s.target a = some .ram ∨ s.target a = some .io := by
  rw [h.target_eq a, if_neg (by omega)]
  split_ifs
  · exact .inr rfl
  · exact .inl rfl

/-! ### The forms of each mnemonic -/

/-- LDA absolute is of the read class (R140, R124). -/
theorem readForm_ldaAbs (ww : Word) : ReadForm 0xAD#8 (.ldaAbs ww) (.mem (.abs ww)) loadedA :=
  readForm_of_load_a (encodeWord_eq _ ww) fun _ => rfl

/-- The hole of the default map is no place to load from (R63). -/
theorem DefaultMap.ldaAbs_hole {s : State} (h : DefaultMap s) {ww : Word} (low : 0x4000 ≤ ww.toNat)
    (high : ww.toNat < 0x8000) : exec (.ldaAbs ww) s = .next (busFaulted s ww .read) := by
  obtain ⟨-, -, unreachable⟩ := readForm_ldaAbs ww
  exact unreachable s fun ⟨_, attached⟩ => (h.unattached_iff ww).2 ⟨low, high⟩ attached

/-- An I/O register's mirrors resolve to it, and it to itself (R65). -/
theorem DefaultMap.canon_ioMirror {s : State} (h : DefaultMap s) {ww : Word} (low : 0x2008 ≤ ww.toNat)
    (high : ww.toNat < 0x4000) :
    s.canon (0x2000#16 ||| (ww &&& 0x0007#16)) = s.canon ww := by
  apply BitVec.eq_of_toNat_eq
  rw [h.canon_toNat, h.canon_toNat, toNat_2000_or_and_0007, if_neg (by omega), if_neg (by omega),
    if_neg (by omega), if_neg (by omega), if_pos ⟨low, high⟩]

/-- Addresses of storage that resolve alike are read alike (R58, R59). -/
theorem exec_ldaAbs_congr {s : State} {a b : Word}
    (storageA : s.target a = some .ram ∨ s.target a = some .io)
    (same : s.canon b = s.canon a) : exec (.ldaAbs a) s = exec (.ldaAbs b) s := by
  have storageB : s.target b = some .ram ∨ s.target b = some .io := by
    rwa [State.target, same]
  have read : memRead b s = memRead a s := by
    rw [memRead_storage storageA, memRead_storage storageB, State.cell, State.cell, same]
  change Acc.finish ((memRead a s).bind _) = Acc.finish ((memRead b s).bind _)
  rw [read]

/-- Settles O24: every form is a `load`; on the default map the hole is unattached and an I/O mirror
resolves as its register does. -/
theorem loadsSetRegisterAndZN : Obligations.LoadsSetRegisterAndZN := by
  unfold Obligations.LoadsSetRegisterAndZN
  exact ⟨fun _ _ map => map.ldaAbs_hole,
    fun _ _ map low high => exec_ldaAbs_congr (map.storage (.inl high)) (map.canon_ioMirror low high),
    fun _ => readForm_of_load_a rfl fun _ => rfl,
    fun _ => readForm_of_load_a rfl fun _ => rfl,
    fun _ => readForm_of_load_a rfl fun _ => rfl,
    fun ww => readForm_of_load_a (encodeWord_eq _ ww) fun _ => rfl,
    fun ww => readForm_of_load_a (encodeWord_eq _ ww) fun _ => rfl,
    fun ww => readForm_of_load_a (encodeWord_eq _ ww) fun _ => rfl,
    fun _ => readForm_of_load_a rfl fun _ => rfl,
    fun _ => readForm_of_load_a rfl fun _ => rfl,
    fun _ => readForm_of_load_x rfl fun _ => rfl,
    fun _ => readForm_of_load_x rfl fun _ => rfl,
    fun _ => readForm_of_load_x rfl fun _ => rfl,
    fun ww => readForm_of_load_x (encodeWord_eq _ ww) fun _ => rfl,
    fun ww => readForm_of_load_x (encodeWord_eq _ ww) fun _ => rfl,
    fun _ => readForm_of_load_y rfl fun _ => rfl,
    fun _ => readForm_of_load_y rfl fun _ => rfl,
    fun _ => readForm_of_load_y rfl fun _ => rfl,
    fun ww => readForm_of_load_y (encodeWord_eq _ ww) fun _ => rfl,
    fun ww => readForm_of_load_y (encodeWord_eq _ ww) fun _ => rfl⟩

/-- Settles O25: every form is a `store`; on the default map the hole is unattached and the rest is
storage. -/
theorem storesWriteTheirCell : Obligations.StoresWriteTheirCell := by
  unfold Obligations.StoresWriteTheirCell
  refine ⟨fun s ww map low high => ?hole, fun s ww map outside => ?stored,
    fun _ => storeForm_of_store State.a rfl fun _ => rfl,
    fun _ => storeForm_of_store State.a rfl fun _ => rfl,
    fun ww => storeForm_of_store State.a (encodeWord_eq _ ww) fun _ => rfl,
    fun ww => storeForm_of_store State.a (encodeWord_eq _ ww) fun _ => rfl,
    fun ww => storeForm_of_store State.a (encodeWord_eq _ ww) fun _ => rfl,
    fun _ => storeForm_of_store State.a rfl fun _ => rfl,
    fun _ => storeForm_of_store State.a rfl fun _ => rfl,
    fun _ => storeForm_of_store State.x rfl fun _ => rfl,
    fun _ => storeForm_of_store State.x rfl fun _ => rfl,
    fun ww => storeForm_of_store State.x (encodeWord_eq _ ww) fun _ => rfl,
    fun _ => storeForm_of_store State.y rfl fun _ => rfl,
    fun _ => storeForm_of_store State.y rfl fun _ => rfl,
    fun ww => storeForm_of_store State.y (encodeWord_eq _ ww) fun _ => rfl⟩
  case hole =>
    change Acc.finish (memWrite ww s.a s) = _
    rw [memWrite_unattached _ ((map.unattached_iff ww).2 ⟨low, high⟩), Acc.finish_stop,
      takeFault_busFault]
  case stored =>
    refine ⟨s.setMem (s.mem.write (s.canon ww).toNat s.a), ?_, fun b same => ?_⟩
    · change Acc.finish (memWrite ww s.a s) = _
      rw [memWrite_storage (map.storage outside), Acc.finish_ok]
    · rw [cell_setMem_write, if_pos same]

/-- Settles O26: every form is an `addMemory` of the operand itself. -/
theorem adcAddsWithCarry : Obligations.AdcAddsWithCarry := by
  unfold Obligations.AdcAddsWithCarry
  exact ⟨fun _ => addForm_of_adc rfl fun _ => rfl,
    fun _ => addForm_of_adc rfl fun _ => rfl,
    fun _ => addForm_of_adc rfl fun _ => rfl,
    fun ww => addForm_of_adc (encodeWord_eq _ ww) fun _ => rfl,
    fun ww => addForm_of_adc (encodeWord_eq _ ww) fun _ => rfl,
    fun ww => addForm_of_adc (encodeWord_eq _ ww) fun _ => rfl,
    fun _ => addForm_of_adc rfl fun _ => rfl,
    fun _ => addForm_of_adc rfl fun _ => rfl⟩

/-- Settles O27: every form is an `addMemory` of the operand's complement. -/
theorem sbcAddsTheComplement : Obligations.SbcAddsTheComplement := by
  unfold Obligations.SbcAddsTheComplement
  exact ⟨fun _ => addForm_of_sbc rfl fun _ => rfl,
    fun _ => addForm_of_sbc rfl fun _ => rfl,
    fun _ => addForm_of_sbc rfl fun _ => rfl,
    fun ww => addForm_of_sbc (encodeWord_eq _ ww) fun _ => rfl,
    fun ww => addForm_of_sbc (encodeWord_eq _ ww) fun _ => rfl,
    fun ww => addForm_of_sbc (encodeWord_eq _ ww) fun _ => rfl,
    fun _ => addForm_of_sbc rfl fun _ => rfl,
    fun _ => addForm_of_sbc rfl fun _ => rfl⟩

/-- Settles O29: every form is a `logic`. -/
theorem logicCombinesIntoA : Obligations.LogicCombinesIntoA := by
  unfold Obligations.LogicCombinesIntoA
  exact ⟨fun _ => readForm_of_logic (· &&& ·) rfl fun _ => rfl,
    fun _ => readForm_of_logic (· &&& ·) rfl fun _ => rfl,
    fun _ => readForm_of_logic (· &&& ·) rfl fun _ => rfl,
    fun ww => readForm_of_logic (· &&& ·) (encodeWord_eq _ ww) fun _ => rfl,
    fun ww => readForm_of_logic (· &&& ·) (encodeWord_eq _ ww) fun _ => rfl,
    fun ww => readForm_of_logic (· &&& ·) (encodeWord_eq _ ww) fun _ => rfl,
    fun _ => readForm_of_logic (· &&& ·) rfl fun _ => rfl,
    fun _ => readForm_of_logic (· &&& ·) rfl fun _ => rfl,
    fun _ => readForm_of_logic (· ||| ·) rfl fun _ => rfl,
    fun _ => readForm_of_logic (· ||| ·) rfl fun _ => rfl,
    fun _ => readForm_of_logic (· ||| ·) rfl fun _ => rfl,
    fun ww => readForm_of_logic (· ||| ·) (encodeWord_eq _ ww) fun _ => rfl,
    fun ww => readForm_of_logic (· ||| ·) (encodeWord_eq _ ww) fun _ => rfl,
    fun ww => readForm_of_logic (· ||| ·) (encodeWord_eq _ ww) fun _ => rfl,
    fun _ => readForm_of_logic (· ||| ·) rfl fun _ => rfl,
    fun _ => readForm_of_logic (· ||| ·) rfl fun _ => rfl,
    fun _ => readForm_of_logic (· ^^^ ·) rfl fun _ => rfl,
    fun _ => readForm_of_logic (· ^^^ ·) rfl fun _ => rfl,
    fun _ => readForm_of_logic (· ^^^ ·) rfl fun _ => rfl,
    fun ww => readForm_of_logic (· ^^^ ·) (encodeWord_eq _ ww) fun _ => rfl,
    fun ww => readForm_of_logic (· ^^^ ·) (encodeWord_eq _ ww) fun _ => rfl,
    fun ww => readForm_of_logic (· ^^^ ·) (encodeWord_eq _ ww) fun _ => rfl,
    fun _ => readForm_of_logic (· ^^^ ·) rfl fun _ => rfl,
    fun _ => readForm_of_logic (· ^^^ ·) rfl fun _ => rfl⟩

/-- Settles O30: the shifts are those of R181 and R182 with a zero coming in. -/
theorem shiftsMoveOneBit : Obligations.ShiftsMoveOneBit := by
  unfold Obligations.ShiftsMoveOneBit
  exact ⟨plainForm_of_shiftLeft (fun _ => false) rfl fun _ => rfl,
    fun _ => modifyForm_of_shiftLeft (fun _ => false) rfl fun _ => rfl,
    fun _ => modifyForm_of_shiftLeft (fun _ => false) rfl fun _ => rfl,
    fun ww => modifyForm_of_shiftLeft (fun _ => false) (encodeWord_eq _ ww) fun _ => rfl,
    fun ww => modifyForm_of_shiftLeft (fun _ => false) (encodeWord_eq _ ww) fun _ => rfl,
    plainForm_of_shiftRight (fun _ => false) rfl fun _ => rfl,
    fun _ => modifyForm_of_shiftRight (fun _ => false) rfl fun _ => rfl,
    fun _ => modifyForm_of_shiftRight (fun _ => false) rfl fun _ => rfl,
    fun ww => modifyForm_of_shiftRight (fun _ => false) (encodeWord_eq _ ww) fun _ => rfl,
    fun ww => modifyForm_of_shiftRight (fun _ => false) (encodeWord_eq _ ww) fun _ => rfl⟩

/-- Settles O31: the shifts with the old carry coming in. -/
theorem rotatesGoThroughCarry : Obligations.RotatesGoThroughCarry := by
  unfold Obligations.RotatesGoThroughCarry
  exact ⟨plainForm_of_shiftLeft (·.p.c) rfl fun _ => rfl,
    fun _ => modifyForm_of_shiftLeft (·.p.c) rfl fun _ => rfl,
    fun _ => modifyForm_of_shiftLeft (·.p.c) rfl fun _ => rfl,
    fun ww => modifyForm_of_shiftLeft (·.p.c) (encodeWord_eq _ ww) fun _ => rfl,
    fun ww => modifyForm_of_shiftLeft (·.p.c) (encodeWord_eq _ ww) fun _ => rfl,
    plainForm_of_shiftRight (·.p.c) rfl fun _ => rfl,
    fun _ => modifyForm_of_shiftRight (·.p.c) rfl fun _ => rfl,
    fun _ => modifyForm_of_shiftRight (·.p.c) rfl fun _ => rfl,
    fun ww => modifyForm_of_shiftRight (·.p.c) (encodeWord_eq _ ww) fun _ => rfl,
    fun ww => modifyForm_of_shiftRight (·.p.c) (encodeWord_eq _ ww) fun _ => rfl⟩

/-- Settles O34: both forms are a `bitTest`, and 0x89 has no row. -/
theorem bitTestsMemory : Obligations.BitTestsMemory := by
  unfold Obligations.BitTestsMemory
  exact ⟨refusedOpcode_of_no_row (by decide),
    fun _ => readForm_of_bitTest rfl fun _ => rfl,
    fun ww => readForm_of_bitTest (encodeWord_eq _ ww) fun _ => rfl⟩

/-- Settles O46: every form is a `stepMemory`, and 0x1A and 0x3A have no row. -/
theorem memorySteps : Obligations.MemorySteps := by
  unfold Obligations.MemorySteps
  exact ⟨refusedOpcode_of_no_row (by decide), refusedOpcode_of_no_row (by decide),
    fun _ => modifyForm_of_inc rfl fun _ => rfl,
    fun _ => modifyForm_of_inc rfl fun _ => rfl,
    fun ww => modifyForm_of_inc (encodeWord_eq _ ww) fun _ => rfl,
    fun ww => modifyForm_of_inc (encodeWord_eq _ ww) fun _ => rfl,
    fun _ => modifyForm_of_dec rfl fun _ => rfl,
    fun _ => modifyForm_of_dec rfl fun _ => rfl,
    fun ww => modifyForm_of_dec (encodeWord_eq _ ww) fun _ => rfl,
    fun ww => modifyForm_of_dec (encodeWord_eq _ ww) fun _ => rfl⟩

end Sys2Proof.Claims
end

section
/-!
PROOF. Branches and jumps (45_branch_jump.md R200–R209), subroutine call and return
(46_stack_subroutine.md R227, R228), and the stack on the default map and in RAM (R220, R221).
-/
namespace Sys2Proof.Machine

/-! ### Branch targets -/

/-- PC moved by a signed displacement, mod 65536 (R200). -/
theorem branchTarget_eq (pc : Word) (rr : Byte) :
    pc + signExtend16 rr = BitVec.ofInt 16 (pc.toNat + rr.toInt) := by
  rw [BitVec.ofInt_add, BitVec.ofInt_natCast, BitVec.ofNat_toNat, BitVec.setWidth_eq]
  rfl

/-! ### Two pushes, high byte first (R227) -/

theorem pushWord_attached {s : State} {w : Word} (high : s.PushAttached)
    (low : (s.pushed (operandHigh w)).PushAttached) :
    pushWord w s = .ok () ((s.pushed (operandHigh w)).pushed (operandLow w)) := by
  rw [pushWord, ← operandHigh, push_attached _ high, Acc.bind_ok]
  exact push_attached _ low

theorem pushWord_high_unattached {s : State} (w : Word) (noHigh : ¬ s.PushAttached) :
    pushWord w s = .stop (busFaulted s s.stackSlot .write) := by
  rw [pushWord, push_unattached _ noHigh, Acc.bind_stop, takeFault_busFault]

/-- With the low byte's slot unattached the push of the high byte stands (R133). -/
theorem pushWord_low_unattached {s : State} {w : Word} (high : s.PushAttached)
    (noLow : ¬ (s.pushed (operandHigh w)).PushAttached) :
    pushWord w s = .stop (busFaulted (s.pushed (operandHigh w)) (s.pushed (operandHigh w)).stackSlot
      .write) := by
  rw [pushWord, ← operandHigh, push_attached _ high, Acc.bind_ok, push_unattached _ noLow,
    takeFault_busFault]

theorem pc_sub_one_toNat (pc : Word) : (pc - 1#16).toNat = (pc.toNat + 65535) % 65536 := by
  rw [BitVec.toNat_sub, Nat.add_comm]
  rfl

/-- The high byte of PC - 1, as arithmetic (R227). -/
theorem operandHigh_pc_sub_one (pc : Word) :
    operandHigh (pc - 1#16) = BitVec.ofNat 8 ((pc.toNat + 65535) % 65536 / 256) := by
  rw [operandHigh_eq, pc_sub_one_toNat]

/-- The low byte of PC - 1, as arithmetic (R227). -/
theorem operandLow_pc_sub_one (pc : Word) :
    operandLow (pc - 1#16) = BitVec.ofNat 8 ((pc.toNat + 65535) % 256) := by
  rw [operandLow_eq, pc_sub_one_toNat, Nat.mod_mod_of_dvd _ (by decide)]

/-! ### The stack in RAM -/

/-- The state a push to a slot in RAM leaves (R220). -/
def State.pushedRam (s : State) (v : Byte) : State :=
  (s.setMem (s.mem.write (s.canon (stackAddr s.sp)).toNat v)).setSp (s.sp - 1#8)

theorem push_ram {s : State} (v : Byte) (ram : s.target (stackAddr s.sp) = some .ram) :
    push v s = .ok () (s.pushedRam v) := by
  rw [push, memWrite_storage (.inl ram), Acc.bind_ok]
  rfl

theorem State.cell_pushedRam (s : State) (v : Byte) (b : Word) :
    (s.pushedRam v).cell b = if s.canon b = s.canon (stackAddr s.sp) then v else s.cell b :=
  cell_setMem_write s (stackAddr s.sp) b v

/-- A pull from a slot in RAM (R221). -/
theorem pull_ram {s : State} {sp : Byte} (up : s.sp + 1#8 = sp)
    (ram : s.target (stackAddr sp) = some .ram) :
    pull s = .ok (s.cell (stackAddr sp)) (s.setSp sp) := by
  rw [pull, up]
  exact memRead_storage (s := s.setSp sp) (.inl ram)

/-- The two bytes of a word, put together again (R7, R227, R228). -/
theorem hiLo_operandHigh_operandLow (w : Word) : hiLo (operandHigh w) (operandLow w) = w :=
  operandWord_low_high w

/-- The state two pushes of a word to slots in RAM leave (R227). -/
def State.wordPushedRam (s : State) (w : Word) : State :=
  (s.pushedRam (operandHigh w)).pushedRam (operandLow w)

theorem pushWord_ram {s : State} (w : Word) (high : s.target (stackAddr s.sp) = some .ram)
    (low : s.target (stackAddr (s.sp - 1#8)) = some .ram) :
    pushWord w s = .ok () (s.wordPushedRam w) := by
  rw [pushWord, push_ram _ high, Acc.bind_ok]
  exact push_ram (s := s.pushedRam (operandHigh w)) (operandLow w) low

/-- Two pulls from slots in RAM (R228). -/
theorem pullWord_ram {s : State} {sp1 sp2 : Byte} (up1 : s.sp + 1#8 = sp1) (up2 : sp1 + 1#8 = sp2)
    (low : s.target (stackAddr sp1) = some .ram) (high : s.target (stackAddr sp2) = some .ram) :
    pullWord s = .ok (hiLo (s.cell (stackAddr sp2)) (s.cell (stackAddr sp1))) (s.setSp sp2) := by
  rw [pullWord, pull_ram up1 low, Acc.bind_ok, pull_ram (s := s.setSp sp1) up2 high, Acc.bind_ok]
  rfl

/-- The two pulls bring back the word pushed, its two slots being different bytes (R228). -/
theorem pullWord_wordPushedRam {s : State} (w pc : Word)
    (high : s.target (stackAddr s.sp) = some .ram)
    (low : s.target (stackAddr (s.sp - 1#8)) = some .ram)
    (apart : s.canon (stackAddr s.sp) ≠ s.canon (stackAddr (s.sp - 1#8))) :
    pullWord ((s.wordPushedRam w).setPc pc) =
      .ok w (((s.wordPushedRam w).setPc pc).setSp s.sp) := by
  have lowByte : ((s.wordPushedRam w).setPc pc).cell (stackAddr (s.sp - 1#8)) = operandLow w :=
    (State.cell_pushedRam _ _ _).trans (if_pos rfl)
  have highByte : ((s.wordPushedRam w).setPc pc).cell (stackAddr s.sp) = operandHigh w :=
    ((State.cell_pushedRam _ _ _).trans (if_neg apart)).trans
      ((State.cell_pushedRam _ _ _).trans (if_pos rfl))
  have up : ((s.wordPushedRam w).setPc pc).sp + 1#8 = s.sp - 1#8 := BitVec.sub_add_cancel _ _
  rw [pullWord_ram up (BitVec.sub_add_cancel _ _) low high, lowByte, highByte,
    hiLo_operandHigh_operandLow]

/-! ### Stack accesses leave the run state and the bus -/

section
variable (s : State) (v : Byte)

theorem State.pushed_run : (s.pushed v).run = s.run := by
  obtain ⟨m, h, stored⟩ := s.afterWrite_eq s.stackSlot v
  rw [State.pushed, stored]

theorem State.pushed_attach : (s.pushed v).attach = s.attach := by
  obtain ⟨m, h, stored⟩ := s.afterWrite_eq s.stackSlot v
  rw [State.pushed, stored]

theorem State.pushed_mirrors : (s.pushed v).mirrors = s.mirrors := by
  obtain ⟨m, h, stored⟩ := s.afterWrite_eq s.stackSlot v
  rw [State.pushed, stored]

theorem State.pulled_run : s.pulled.run = s.run := State.afterRead_run _ _
theorem State.pulled_attach : s.pulled.attach = s.attach := State.afterRead_attach _ _
theorem State.pulled_mirrors : s.pulled.mirrors = s.mirrors := State.afterRead_mirrors _ _

theorem State.stackSlot_toNat : s.stackSlot.toNat = 0x0100 + s.sp.toNat := by
  have := s.sp.isLt
  rw [State.stackSlot, BitVec.toNat_ofNat]
  omega

end

end Sys2Proof.Machine

namespace Sys2Proof.Claims
open Sys2Proof.Machine

/-! ### Branches -/

theorem branchForm_of_branch {op : Byte} {i : Byte → Instr} (cond : Status → Bool)
    (encoding : ∀ rr, encode (i rr) = [op, rr])
    (meaning : ∀ rr s, exec (i rr) s = branch (cond s.p) rr s) : BranchForm op i cond := by
  refine fun rr => ⟨encoding rr, fun s => ⟨fun taken => ?_, fun notTaken => ?_⟩⟩
  · rw [meaning, branch, if_pos taken, branchTarget_eq]
    rfl
  · rw [meaning, branch, notTaken, if_neg Bool.false_ne_true]

/-- Settles O35: every form is a `branch` on its flag. -/
theorem branchesMovePc : Obligations.BranchesMovePc := by
  unfold Obligations.BranchesMovePc
  exact ⟨branchForm_of_branch (fun p => !p.c) (fun _ => rfl) fun _ _ => rfl,
    branchForm_of_branch (fun p => p.c) (fun _ => rfl) fun _ _ => rfl,
    branchForm_of_branch (fun p => p.z) (fun _ => rfl) fun _ _ => rfl,
    branchForm_of_branch (fun p => !p.z) (fun _ => rfl) fun _ _ => rfl,
    branchForm_of_branch (fun p => p.n) (fun _ => rfl) fun _ _ => rfl,
    branchForm_of_branch (fun p => !p.n) (fun _ => rfl) fun _ _ => rfl,
    branchForm_of_branch (fun p => !p.v) (fun _ => rfl) fun _ _ => rfl,
    branchForm_of_branch (fun p => p.v) (fun _ => rfl) fun _ _ => rfl⟩

/-! ### Jumps -/

theorem exec_jmpInd (ww : Word) (s : State) :
    exec (.jmpInd ww) s = Acc.finish ((read16 ww s).bind fun ea t => .ok () (t.setPc ea)) := rfl

/-- Settles O36: JMP absolute sets PC; the indirect form is a `read16` before it, with its three
ends. -/
theorem jmpSetsPc : Obligations.JmpSetsPc := by
  unfold Obligations.JmpSetsPc
  refine ⟨fun ww => ⟨encodeWord_eq _ ww, fun _ => rfl⟩, fun ww => ⟨encodeWord_eq _ ww,
    fun s attached => ?_, fun s noLow => ?_, fun s low noHigh => ?_⟩⟩
  · rw [exec_jmpInd, read16_attached attached]
    rfl
  · rw [exec_jmpInd, read16_unattached fun both => noLow both.1,
      State.wordFault_of_low_unattached noLow]
    rfl
  · rw [exec_jmpInd, read16_unattached fun both => noHigh both.2,
      State.wordFault_of_low_attached low]
    rfl

/-! ### JSR and RTS -/

theorem exec_jsr (ww : Word) (s : State) :
    exec (.jsr ww) s =
      Acc.finish ((pushWord (s.pc - 1#16) s).bind fun _ t => .ok () (t.setPc ww)) := rfl

theorem exec_rts (s : State) :
    exec .rts s = Acc.finish ((pullWord s).bind fun w t => .ok () (t.setPc (w + 1#16))) := rfl

/-- Settles O40: the two pushes of PC - 1 complete, or the first or the second of them raises. -/
theorem jsrPushesReturnAddress : Obligations.JsrPushesReturnAddress := by
  unfold Obligations.JsrPushesReturnAddress
  refine fun ww => ⟨encodeWord_eq _ ww, fun s => ?_⟩
  rw [← operandHigh_pc_sub_one, ← operandLow_pc_sub_one, exec_jsr]
  refine ⟨fun high low => ?_, fun noHigh => ?_, fun high noLow => ?_⟩
  · rw [pushWord_attached high low]
    rfl
  · rw [pushWord_high_unattached _ noHigh]
    rfl
  · rw [pushWord_low_unattached high noLow]
    rfl

/-- Settles O41: the two pulls complete, or the first or the second of them raises. -/
theorem rtsPullsReturnAddress : Obligations.RtsPullsReturnAddress := by
  unfold Obligations.RtsPullsReturnAddress
  refine ⟨rfl, fun s => ⟨fun low high => ?_, fun noLow => ?_, fun low noHigh => ?_⟩⟩ <;> rw [exec_rts]
  · rw [pullWord_attached low high,
      BitVec.ofNat_add (s.pulled.pullByte.toNat * 256 + s.pullByte.toNat) 1]
    rfl
  · rw [pullWord_low_unattached noLow]
    rfl
  · rw [pullWord_high_unattached low noHigh]
    rfl

/-! ### The stack on the default map -/

theorem DefaultMap.of_same_bus {s t : State} (h : DefaultMap s) (attach : t.attach = s.attach)
    (mirrors : t.mirrors = s.mirrors) : DefaultMap t := by
  rw [DefaultMap, attach, mirrors]
  exact h

/-- Page 1 is internal RAM (R63). -/
theorem DefaultMap.target_stackSlot {s : State} (h : DefaultMap s) (t : State) :
    s.target t.stackSlot = some .ram := by
  have := t.sp.isLt
  rw [h.target_eq, State.stackSlot_toNat, if_neg (by omega), if_neg (by omega)]

theorem DefaultMap.pushAttached {s : State} (h : DefaultMap s) : s.PushAttached :=
  Option.isSome_of_eq_some (h.target_stackSlot s)

theorem DefaultMap.pullAttached {s : State} (h : DefaultMap s) : s.PullAttached :=
  Option.isSome_of_eq_some (h.target_stackSlot s.spUp)

theorem DefaultMap.pushed {s : State} (h : DefaultMap s) (v : Byte) : DefaultMap (s.pushed v) :=
  h.of_same_bus (s.pushed_attach v) (s.pushed_mirrors v)

theorem DefaultMap.pulled {s : State} (h : DefaultMap s) : DefaultMap s.pulled :=
  h.of_same_bus s.pulled_attach s.pulled_mirrors

/-- Settles O58: every slot is RAM, so each instruction is in the case where its stack accesses
complete. -/
theorem stackStaysInRam : Obligations.StackStaysInRam := by
  unfold Obligations.StackStaysInRam
  intro s map
  have := s.sp.isLt
  have slot := s.stackSlot_toNat
  refine ⟨⟨by omega, by omega, map.target_stackSlot s⟩, fun i t isStack executed => ?_⟩
  obtain ⟨⟨-, pha, -⟩, -, php, -⟩ := pushesWriteTheStack
  obtain ⟨-, pla, -⟩ := plaPullsIntoA
  obtain ⟨⟨-, plp, -⟩, -⟩ := plpPullsStatus
  obtain ⟨⟨-, brk, -⟩, -⟩ := brkHalts
  obtain ⟨-, rts⟩ := rtsPullsReturnAddress
  obtain ⟨-, rti⟩ := rtiPullsStatusAndPc
  obtain rfl | rfl | rfl | rfl | ⟨ww, rfl⟩ | rfl | rfl | rfl := isStack
  · cases (pha s map.pushAttached).symm.trans executed
    exact .inl (s.pushed_run _)
  · cases (php s map.pushAttached).symm.trans executed
    exact .inl (s.pushed_run _)
  · cases (pla s map.pullAttached).symm.trans executed
    exact .inl s.pulled_run
  · cases (plp s map.pullAttached).symm.trans executed
    exact .inl s.pulled_run
  · obtain ⟨-, jsr⟩ := jsrPushesReturnAddress ww
    obtain ⟨completes, -⟩ := jsr s
    cases (completes map.pushAttached (map.pushed _).pushAttached).symm.trans executed
    exact .inl (by simp only [State.pushed_run])
  · obtain ⟨completes, -⟩ := rts s
    cases (completes map.pullAttached map.pulled.pullAttached).symm.trans executed
    exact .inl (s.pulled.pulled_run.trans s.pulled_run)
  · obtain ⟨completes, -⟩ := rti s
    have map1 : DefaultMap (statusPulled s) := map.pulled
    cases (completes map.pullAttached map1.pullAttached map1.pulled.pullAttached).symm.trans executed
    have run1 : (statusPulled s).run = s.run := s.pulled_run
    exact .inl ((State.pulled_run _).trans ((statusPulled s).pulled_run.trans run1))
  · cases (brk s map.pushAttached).symm.trans executed
    exact .inr ⟨rfl, rfl⟩

/-- Settles O57: the record is of an unattached address, by O53. -/
theorem defaultMapFaultsInTheHole : Obligations.DefaultMapFaultsInTheHole := by
  unfold Obligations.DefaultMapFaultsInTheHole
  intro s t a d map _ stepped fault
  obtain ⟨-, running | ⟨-, halted⟩ | ⟨b, e, unattached, faulted⟩ | ⟨-, illegal⟩⟩ :=
    runStateFrame.2 s t stepped
  · rw [fault] at running; cases running
  · rw [fault] at halted; cases halted
  · rw [fault] at faulted
    cases faulted
    exact (map.unattached_iff a).1 unattached
  · rw [fault] at illegal; cases illegal

/-! ### Round trips -/

theorem exec_pha (s : State) : exec .pha s = Acc.finish (push s.a s) := rfl

theorem exec_pla (s : State) :
    exec .pla s = Acc.finish ((pull s).bind fun v t => .ok () (t.putReg .a v)) := rfl

/-- Settles O59: the pull reads the slot the push wrote, and SP is back. -/
theorem phaPlaRoundTrip : Obligations.PhaPlaRoundTrip := by
  unfold Obligations.PhaPlaRoundTrip
  intro s ram
  rw [← stackAddr_eq] at ram ⊢
  have slot : (s.pushedRam s.a).cell (stackAddr s.sp) = s.a :=
    (s.cell_pushedRam _ _).trans (if_pos rfl)
  refine ⟨s.pushedRam s.a, by rw [exec_pha, push_ram _ ram, Acc.finish_ok], slot, ?_⟩
  rw [exec_pla, pull_ram (s := s.pushedRam s.a) (BitVec.sub_add_cancel _ _) ram, Acc.bind_ok,
    Acc.finish_ok, slot, putReg_a]
  rfl

/-- Settles O60: the two pulls bring back the word the two pushes stored, PC - 1, and one past it is
PC. -/
theorem jsrRtsRoundTrip : Obligations.JsrRtsRoundTrip := by
  unfold Obligations.JsrRtsRoundTrip
  intro s ww high low apart
  rw [← stackAddr_eq] at high apart
  refine ⟨_, by rw [exec_jsr, pushWord_ram _ high low, Acc.bind_ok, Acc.finish_ok], rfl,
    BitVec.sub_sub _ _ _, ?_⟩
  rw [exec_rts, pullWord_wordPushedRam _ _ high low apart, Acc.bind_ok, Acc.finish_ok,
    BitVec.sub_add_cancel]
  rfl

end Sys2Proof.Claims
end

section
/-!
PROOF. Setup (70_reset_and_hazards.md R290–R298): its refusals, the registers every launch leaves,
and the launch of the blank image.
-/
namespace Sys2Proof.Machine

/-! ### Setup's preconditions (R290) -/

theorem setup_used {s : State} (h : s.mirrors ≠ []) (image : List Byte) :
    setup image s = .refused .usedBus := by
  rw [setup, if_pos (by simpa using h)]

theorem setup_fresh {s : State} (h : s.mirrors = []) (image : List Byte) :
    setup image s =
      if !ioBlocksEmpty s then .refused .ioNotEmpty
      else if !Config.imageWf image then .refused .imageLength
      else setupSteps image s := by
  rw [setup, if_neg (by simp [h])]

theorem ioBlocksEmpty_iff (s : State) :
    ioBlocksEmpty s = true ↔ ∀ c ∈ s.mem, owner s.attach (BitVec.ofNat 16 c.1) ≠ some .io := by
  simp only [ioBlocksEmpty, List.all_eq_true, decide_eq_true_eq]

/-! ### How the steps of setup end -/

section
variable {s t : State}

theorem setup_next {image : List Byte} (h : setup image s = .next t) :
    setupSteps image s = .next t := by
  unfold setup at h
  split at h
  next => cases h
  next =>
    split at h
    next => cases h
    next =>
      split at h
      next => cases h
      next => exact h

theorem withMirrors_next {canon : Range} {ms : List Range} {k : State → Answer}
    (h : withMirrors canon ms s k = .next t) : ∃ table, k (s.setMirrors table) = .next t := by
  unfold withMirrors at h
  split at h
  next => cases h
  next table _ => exact ⟨table, h⟩

theorem prgMirror_next {image : List Byte} {k : State → Answer} (h : prgMirror image s k = .next t) :
    ∃ table, k (s.setMirrors table) = .next t := by
  unfold prgMirror at h
  split at h
  next => exact withMirrors_next h
  next => exact ⟨s.mirrors, h⟩

/-- An access that has raised ends setup there (R298). -/
theorem afterAccess_next {r : Acc Unit} {k : State → Answer} (h : afterAccess r k = .next t) :
    r = .stop t ∨ ∃ u, r = .ok () u ∧ k u = .next t := by
  cases r with
  | ok v u => exact .inr ⟨u, rfl, h⟩
  | stop u => cases h; exact .inl rfl

theorem memWrite_stop {a : Word} {v : Byte} (h : memWrite a v s = .stop t) :
    t.run ≠ .running := by
  by_cases attached : s.Attached a
  · rw [memWrite_attached v attached] at h
    cases h
  · rw [memWrite_unattached v attached] at h
    cases h
    exact RunState.noConfusion

theorem writeBlock_stop {a : Nat} {block : List Byte} (h : writeBlock a block s = .stop t) :
    t.run ≠ .running := by
  induction block generalizing s a with
  | nil => cases h
  | cons v rest ih =>
    rw [writeBlock] at h
    cases wrote : memWrite (BitVec.ofNat 16 a) v s with
    | stop u =>
      rw [wrote, Acc.bind_stop] at h
      cases h
      exact memWrite_stop wrote
    | ok _ u =>
      rw [wrote, Acc.bind_ok] at h
      exact ih h

end

/-! ### The registers setup leaves (R294) -/

/-- P, A, X, Y and SP at the values of R294. -/
structure State.ResetRegisters (s : State) : Prop where
  p : s.p = Status.reset
  a : s.a = 0x00#8
  x : s.x = 0x00#8
  y : s.y = 0x00#8
  sp : s.sp = 0xFD#8

theorem setRegisters_resetRegisters (s : State) : (setRegisters s).ResetRegisters :=
  ⟨rfl, rfl, rfl, rfl, rfl⟩

theorem OnlyAccess.resetRegisters {L : List Word} {s t : State} (h : OnlyAccess L s t)
    (reset : s.ResetRegisters) : t.ResetRegisters :=
  ⟨h.regs.p.trans reset.p, h.regs.a.trans reset.a, h.regs.x.trans reset.x, h.regs.y.trans reset.y,
    h.sp.trans reset.sp⟩

theorem zeroBlock_resetRegisters {a n : Nat} {s : State} (reset : s.ResetRegisters) :
    (zeroBlock a n s).state.ResetRegisters := by
  induction n generalizing s a with
  | zero => exact reset
  | succ n ih =>
    have wrote := (memWrite_only (BitVec.ofNat 16 a) 0x00#8 s).resetRegisters reset
    rw [zeroBlock]
    cases h : memWrite (BitVec.ofNat 16 a) 0x00#8 s with
    | ok _ u => rw [h] at wrote; exact ih wrote
    | stop u => rw [h] at wrote; exact wrote

theorem loadVector_resetRegisters {s : State} (reset : s.ResetRegisters) :
    (loadVector s).state.ResetRegisters := by
  have read := (read16_only 0xFFFC#16 s).resetRegisters reset
  rw [loadVector]
  cases h : read16 0xFFFC#16 s with
  | ok w u => rw [h] at read; exact ⟨read.p, read.a, read.x, read.y, read.sp⟩
  | stop u => rw [h] at read; exact read

/-- Setup steps 4 and 5, whether they complete or raise (R294–R298). -/
theorem lastSteps_resetRegisters {s t : State}
    (h : afterAccess (zeroBlock 0x0000 0x0800 (setRegisters s)) (fun u => Acc.finish (loadVector u)) =
      .next t) : t.ResetRegisters := by
  have zeroed := zeroBlock_resetRegisters (a := 0x0000) (n := 0x0800) (setRegisters_resetRegisters s)
  obtain stopped | ⟨u, wrote, h⟩ := afterAccess_next h
  · rw [stopped] at zeroed
    exact zeroed
  · rw [wrote] at zeroed
    rw [Acc.finish_eq] at h
    cases h
    exact loadVector_resetRegisters zeroed

/-- Setup that ends Running has passed the image's writes, and so reaches its last two steps. -/
theorem setupSteps_resetRegisters {image : List Byte} {s t : State} (h : setupSteps image s = .next t)
    (running : t.run = .running) : t.ResetRegisters := by
  obtain ⟨_, h⟩ := withMirrors_next h
  obtain stopped | ⟨_, -, h⟩ := afterAccess_next h
  · exact absurd running (writeBlock_stop stopped)
  · obtain ⟨_, h⟩ := prgMirror_next h
    obtain ⟨_, h⟩ := withMirrors_next h
    exact lastSteps_resetRegisters h

/-! ### The blank image -/

/-- Storing zeros where nothing is listed lists nothing. -/
theorem Memory.store_zeros (a n : Nat) : Memory.store [] a (List.replicate n 0x00#8) = [] := by
  induction n generalizing a with
  | zero => rw [List.replicate_zero, Memory.store]
  | succ n ih =>
    rw [List.replicate_succ, Memory.store]
    exact ih (a + 1)

theorem launchStorage_blank (n : Nat) : launchStorage [] (List.replicate n 0x00#8) = [] := by
  rw [launchStorage, Memory.store_zeros, Memory.store_zeros]

theorem launchMirrors_long {image : List Byte} (h : image.length ≠ 16384) :
    launchMirrors image = [ioRun, ramRun] := by
  rw [launchMirrors, prgMirrors, if_neg h]

theorem resetVector_blank {n : Nat} (h : 4 ≤ n) :
    resetVector (List.replicate n 0x00#8) = 0x0000#16 := by
  rw [resetVector, List.length_replicate, List.getD_replicate _ (by omega),
    List.getD_replicate _ (by omega)]
  rfl

end Sys2Proof.Machine

namespace Sys2Proof.Claims
open Sys2Proof.Machine

/-- Settles O4: the three checks in their order, each refusing once those before it have passed. -/
theorem setupRefusals : Obligations.SetupRefusals := by
  unfold Obligations.SetupRefusals
  refine ⟨fun image s used => setup_used used image, fun image s c fresh listed io => ?_,
    fun image s fresh noIo short long => ?_⟩
  · have notEmpty : ¬ ioBlocksEmpty s = true := fun empty => (ioBlocksEmpty_iff s).1 empty c listed io
    rw [setup_fresh fresh, if_pos (by simpa using notEmpty)]
  · have empty := (ioBlocksEmpty_iff s).2 noIo
    have length : ¬ Config.imageWf image = true := fun wf =>
      ((imageWf_iff image).1 wf).elim short long
    rw [setup_fresh fresh, if_neg (by simp [empty]), if_pos (by simpa using length)]

/-- Settles O1: a launch that ends Running is a setup whose steps ran, and R294's values stand. -/
theorem launchSetsRegisters : Obligations.LaunchSetsRegisters := by
  unfold Obligations.LaunchSetsRegisters
  rintro s ⟨params, targets, initial, image, regs, launched, running⟩
  unfold launch at launched
  split at launched
  next => cases launched
  next fresh _ =>
    have reset := setupSteps_resetRegisters (setup_next launched) running
    rw [reset.p, reset.a, reset.x, reset.y, reset.sp]
    exact ⟨rfl, rfl, rfl, rfl, rfl, rfl, rfl, rfl⟩

/-- Settles O3: the launch of the default map with no byte of the image or of RAM listed, two
mirrors and the vector 0x0000. -/
theorem resetIsBlankLaunch : Obligations.ResetIsBlankLaunch := by
  unfold Obligations.ResetIsBlankLaunch
  intro regs
  have length : (List.replicate 32768 (0x00#8 : Byte)).length = 32768 := List.length_replicate
  rw [launch_platformTargets ((imageWf_iff _).2 (.inr length)) (List.forall_mem_nil _), launchState,
    resetVector_blank (by decide), launchMirrors_long (by rw [length]; decide), launchStorage_blank]
  rfl

end Sys2Proof.Claims
end
